-- ==== Sys2Proof/Word.lean ====
section
/-! DEFINITION. The byte of the wire formats (Chapter 12) and the two index families the whole model uses:
what stands once per hose, per grade, per compartment, meter or tier. -/

namespace Sys2Proof

/-- One byte of a frame, of a payload or of the reader line (R190, R194, R26). -/
abbrev Byte := BitVec 8

/-- The three hose points; reader port RPn and Hose Controller HCn are numbered after their hose (0.4). -/
inductive HoseId where
  | h1 | h2 | h3
deriving DecidableEq, Repr

/-- The number 1 to 3 of a hose. -/
def HoseId.number : HoseId → Nat
  | .h1 => 1
  | .h2 => 2
  | .h3 => 3

/-- The three grades: G1 and G2 are diesel, G3 is exhaust fluid (0.1). -/
inductive Grade where
  | g1 | g2 | g3
deriving DecidableEq, Repr

/-- An index 1 to 4: compartments, meter channels and price tiers (tier 0 is the first). -/
inductive Four where
  | one | two | three | four
deriving DecidableEq, Repr

/-- A compartment number 1 to 4. -/
abbrev CompId := Four
/-- A meter number 1 to 4: meter n serves hose Hn, meter 4 the inlet. -/
abbrev MeterId := Four
/-- A price tier 0 to 3 (`Four.one` is tier 0). -/
abbrev Tier := Four

/-- The number 1 to 4. -/
def Four.number : Four → Nat
  | .one => 1
  | .two => 2
  | .three => 3
  | .four => 4

/-- Meter n serves hose Hn for n from 1 to 3 (0.4). -/
def HoseId.meter : HoseId → MeterId
  | .h1 => .one
  | .h2 => .two
  | .h3 => .three

/-- The hose of a meter; meter 4 is the inlet's and has none. -/
def meterHose : MeterId → Option HoseId
  | .one => some .h1
  | .two => some .h2
  | .three => some .h3
  | .four => none

/-- One value for each hose. -/
structure ByHose (α : Type) where
  h1 : α
  h2 : α
  h3 : α
deriving DecidableEq, Repr

def ByHose.get {α : Type} (v : ByHose α) : HoseId → α
  | .h1 => v.h1
  | .h2 => v.h2
  | .h3 => v.h3

def ByHose.set {α : Type} (v : ByHose α) (h : HoseId) (a : α) : ByHose α :=
  match h with
  | .h1 => { v with h1 := a }
  | .h2 => { v with h2 := a }
  | .h3 => { v with h3 := a }

def ByHose.all {α : Type} (a : α) : ByHose α := ⟨a, a, a⟩

def ByHose.map {α β : Type} (f : α → β) (v : ByHose α) : ByHose β := ⟨f v.h1, f v.h2, f v.h3⟩

def ByHose.toList {α : Type} (v : ByHose α) : List α := [v.h1, v.h2, v.h3]

/-- One value for each grade. -/
structure ByGrade (α : Type) where
  g1 : α
  g2 : α
  g3 : α
deriving DecidableEq, Repr

def ByGrade.get {α : Type} (v : ByGrade α) : Grade → α
  | .g1 => v.g1
  | .g2 => v.g2
  | .g3 => v.g3

def ByGrade.set {α : Type} (v : ByGrade α) (g : Grade) (a : α) : ByGrade α :=
  match g with
  | .g1 => { v with g1 := a }
  | .g2 => { v with g2 := a }
  | .g3 => { v with g3 := a }

def ByGrade.all {α : Type} (a : α) : ByGrade α := ⟨a, a, a⟩

def ByGrade.toList {α : Type} (v : ByGrade α) : List α := [v.g1, v.g2, v.g3]

/-- One value for each of four numbered things. -/
structure ByFour (α : Type) where
  one : α
  two : α
  three : α
  four : α
deriving DecidableEq, Repr

def ByFour.get {α : Type} (v : ByFour α) : Four → α
  | .one => v.one
  | .two => v.two
  | .three => v.three
  | .four => v.four

def ByFour.set {α : Type} (v : ByFour α) (i : Four) (a : α) : ByFour α :=
  match i with
  | .one => { v with one := a }
  | .two => { v with two := a }
  | .three => { v with three := a }
  | .four => { v with four := a }

def ByFour.all {α : Type} (a : α) : ByFour α := ⟨a, a, a, a⟩

def ByFour.map {α β : Type} (f : α → β) (v : ByFour α) : ByFour β :=
  ⟨f v.one, f v.two, f v.three, f v.four⟩

def ByFour.toList {α : Type} (v : ByFour α) : List α := [v.one, v.two, v.three, v.four]

end Sys2Proof
end

