-- ==== Sys2Proof/Syntax.lean ====
section
/-! DEFINITION. The commands of the block: the named values and field sets they carry, and `Instr`, one
constructor per row of spec/opcode_table.json. A number a host command carries is a plain `Nat`, so that a
value outside its range can be written and is answered MALFORMED by the command's own rule; an event of the
field or of the Timebase carries the physical thing it happens to. -/

namespace Sys2Proof

/-- A set of grades (R194: one byte, G1, G2 and G3 in its three lowest bits). -/
structure GradeSet where
  g1 : Bool
  g2 : Bool
  g3 : Bool
deriving DecidableEq, Repr

/-- The two tanks of a machine (1.1). -/
inductive TankKind where
  | fuel | fluid
deriving DecidableEq, Repr

/-- A tank sub-record (1.1): tag ID, permitted grades, capacity in L, flow ceiling in L/min. -/
structure Tank where
  tag : Nat
  grades : GradeSet
  capacity : Nat
  ceiling : Option Nat
deriving DecidableEq, Repr

/-- The host-set fields of a machine record (1.1). -/
structure MachineFields where
  number : Nat
  account : Nat
  manualPermitted : Bool
  allowance : Nat
  fuel : Option Tank
  fluid : Option Tank
deriving DecidableEq, Repr

/-- The two ways MACHINE FIND names a machine (R16). -/
inductive MachineKey where
  | tag (tag : Nat)
  | number (number : Nat)
deriving DecidableEq, Repr

/-- Range and default policies (1.4), in the order REFUSE, REFER, ALLOW. -/
inductive Policy where
  | refuse | refer | allow
deriving DecidableEq, Repr

/-- A range table entry (1.4). -/
structure RangeEntry where
  enabled : Bool
  base : Nat
  mask : Nat
  policy : Policy
  account : Nat
  grades : GradeSet
  limit : Nat
deriving DecidableEq, Repr

/-- The two ways ACCOUNT READ names an account (R50). -/
inductive AccountKey where
  | slot (slot : Nat)
  | number (number : Nat)
deriving DecidableEq, Repr

/-- The figures of a billing period (3.1): net µL by grade, charge total, fill count. -/
structure PeriodFigures where
  net : ByGrade Nat
  charges : Nat
  fills : Nat
deriving DecidableEq, Repr

/-- A service state a host may ask for (R67, R99). -/
inductive ServiceTarget where
  | inService | outOfService
deriving DecidableEq, Repr

/-- Where RESTATE takes its value from (R68). -/
inductive RestateSource where
  | host (value : Nat)
  | gauge
deriving DecidableEq, Repr

/-- A strapping point: a level in 0.1 mm and a gross volume in L (4.1). -/
structure StrapPoint where
  level : Nat
  volume : Nat
deriving DecidableEq, Repr

/-- A linearisation point: a flow in L/min and a factor in 1/65,536 (9.1). -/
structure LinPoint where
  flow : Nat
  factor : Nat
deriving DecidableEq, Repr

/-- The fields HOSE SETUP carries (R97). -/
structure HoseSetupFields where
  preference : List Nat
  maxFlow : Nat
  minFill : Nat
  slowDown : Nat
  slowFlow : Nat
  lead : Nat
  startDuty : Nat
  readyTimeout : Nat
  resumeWindow : Nat
  noFlowWindows : Nat
  noFlowThreshold : Nat
  stopSettle : Nat
  creepLimit : Nat
  rewindLimit : Nat
  referDeadline : Nat
  collectionRequired : Bool
deriving DecidableEq, Repr

/-- What a compartment's probes deliver at one sampling (R72): the level probe's own status fault, its
reading in 0.1 mm and the temperature reading in 0.1 °C. -/
structure RawSample where
  statusFault : Bool
  level : Nat
  temperature : Int
deriving DecidableEq, Repr

/-- The bits of a character after its data bits: whether its parity bit and its stop bit are at the mark level (R26). -/
structure CharacterTail where
  parity : Bool
  stop : Bool
deriving DecidableEq, Repr

/-- A reader line at the space level for longer than one character time (R26); `returned` says whether it has been at the
mark level since the last break reported. -/
structure HeldLine where
  port : HoseId
  returned : Bool
deriving DecidableEq, Repr

/-- The commands: one constructor per row of spec/opcode_table.json, in the table's order. -/
inductive Instr where
  -- machine commands (Chapter 1)
  | machineInstall (f : MachineFields)
  | machineAmendChange (slot : Nat) (f : MachineFields)
  | machineAmendRewrite (slot : Nat) (f : MachineFields) (used overrun fills : Nat)
  | machineRead (slot : Nat)
  | machineFind (key : MachineKey)
  | machineSuspend (slot : Nat)
  | machineReinstate (slot : Nat)
  | machineRetire (slot : Nat)
  | tagQuery (tag : Nat)
  | rangeWrite (entry : Nat) (e : RangeEntry)
  | rangeRead (entry : Nat)
  | defaultPolicySet (policy : Policy)
  -- reader commands (Chapter 2)
  | readerSetup (port baud minQuality grace : Nat)
  | readerStatus (port : Nat) (clear : Bool)
  -- account and price commands (Chapter 3)
  | accountOpen (number tier limit : Nat)
  | accountAmendChange (slot number tier limit : Nat)
  | accountAmendRewrite (slot number tier limit balance period : Nat) (current : PeriodFigures)
  | accountRead (key : AccountKey)
  | accountStop (slot : Nat)
  | accountResume (slot : Nat)
  | accountRetire (slot : Nat)
  | settle (slot amount : Nat)
  | periodClose (slot : Nat)
  | statementRead (slot : Nat)
  | statementRelease (slot period : Nat)
  | priceWrite (tier : Nat) (grade : Grade) (price : Nat)
  | priceRead
  -- compartment commands (Chapter 4)
  | compartmentSetup (comp : Nat) (grade : Option Grade) (capacity threshold : Nat)
  | compartmentService (comp : Nat) (target : ServiceTarget)
  | restate (comp : Nat) (source : RestateSource)
  | compartmentRead (comp : Nat)
  | strapWrite (comp : Nat) (points : List StrapPoint)
  | strapRead (comp : Nat)
  | gauge (comp : Nat)
  -- authorisation commands (Chapter 5)
  | authoriseManual (hose machine : Nat) (tank : TankKind) (preset : Option Nat)
  | referReplyAccept (hose account : Nat) (grades : GradeSet) (limit : Nat)
  | referReplyRefuse (hose : Nat)
  | referReplyRecheck (hose : Nat)
  -- hose commands (Chapters 6 and 7)
  | hoseSetup (hose : Nat) (f : HoseSetupFields)
  | hoseRead (hose : Nat)
  | hoseService (hose : Nat) (target : ServiceTarget)
  | fieldStatus
  | rewind (hose : Nat)
  | hoseStop (hose : Nat)
  | collect (hose number : Nat)
  | sessionRead (hose : Nat)
  -- meter and metrology commands (Chapters 8 and 9)
  | meterRead (meter : Nat)
  | metrologyWrite (meter pulseVolume : Nat) (points : List LinPoint)
  | gradeCoefficientWrite (grade : Grade) (alpha : Nat) (fallback : Int)
  | storeWriteComplete
  | metrologyRead (meter : Nat)
  | proveStart (hose flow nominal : Nat)
  | proveResult (hose observed : Nat)
  | proveAbort (hose : Nat)
  | proveRead (hose : Nat)
  -- load and inlet commands (Chapter 10)
  | loadCreate (comp : Nat) (grade : Grade) (expected : Nat) (docket : List Byte)
  | loadArm (slot : Nat)
  | loadCancel (slot : Nat)
  | loadAbort (slot : Nat)
  | loadRead (slot : Nat)
  | loadRetire (slot : Nat)
  | inletSetup (idle arm settle ullage : Nat)
  | inletRead
  -- timebase commands (Chapter 11)
  | windowSet (length : Nat)
  | clockSet (count : Nat)
  | rolloverSet (second : Nat)
  | clockRead
  -- fault, notice and port commands (Chapter 12)
  | faultRead (bank : Nat)
  | faultControl (bank enable : Nat)
  | faultClear (bank : Nat)
  | noticeNext
  | noticeMask (mask : Nat)
  | restart
  | identify
  -- the link (12.3)
  | commandTransaction (opening : Byte) (frame : List Byte)
  | readTransaction (opening : Byte) (count : Nat)
  | linkReset
  -- resets and supply (11.4)
  | resetPin
  | powerUp
  | retentionSupplyLoss
  | powerFailWarning (asserted : Bool)
  | powerFailHoldOffExpiry
  -- field inputs (6.2)
  | emergencyStop (asserted : Bool)
  | parkBrake (applied : Bool)
  | nozzleSwitch (hose : HoseId) (offHook : Bool)
  | startInput (hose : HoseId) (asserted : Bool)
  | stowSwitch (hose : HoseId) (closed : Bool)
  | inletCoupling (coupled : Bool)
  | highLevelSwitch (comp : CompId) (high : Bool)
  | sealSwitch (closed : Bool)
  -- reader events (Chapter 2)
  | receiverCharacter (port : HoseId) (data : Byte) (tail : CharacterTail)
  | lineBreak (line : HeldLine)
  | idleEvent (port : HoseId)
  | fifoEntryTaken (port : HoseId)
  | silenceTimerExpiry (port : HoseId)
  | graceExpiry (port : HoseId)
  -- tag events at the Hose Controllers (R37)
  | tagPresent (hose : HoseId) (tag : Nat)
  | tagLost (hose : HoseId) (tag : Nat)
  | tagChanged (hose : HoseId) (old new : Nat)
  -- timers
  | referDeadlineExpiry (hose : HoseId)
  | readyTimerExpiry (hose : HoseId)
  | resumeTimerExpiry (hose : HoseId)
  | settleTimerExpiry (hose : HoseId)
  | rewindTimerExpiry (hose : HoseId)
  | proveReadyTimeout (hose : HoseId)
  | proveSettleTimerExpiry (hose : HoseId)
  | armTimerExpiry
  | inletIdleTimerExpiry
  | loadSettleTimerExpiry
  -- metering, probes and clock
  | windowExpiry (temperatures : ByFour Int)
  | forwardPulse (meter : MeterId) (capture : Nat)
  | reversePulse (meter : MeterId)
  | illegalTransition (meter : MeterId)
  | pwmPeriodStart
  | probeSample (samples : ByFour RawSample)
  | siteClockSecond
  | pulserQuarterStep (meter : MeterId) (forward : Bool)
  | lineTemperatureValidityChange (hose : HoseId) (reading : Int)
  | mainPowerLoss
deriving DecidableEq, Repr

end Sys2Proof
end

