-- ==== Sys2Proof/Config.lean ====
section
/-! DEFINITION. What the part fixes (table sizes, ranges, timings) and the free values: constants with no
body, which no proof can evaluate, that stand for results the spec does not state. -/

namespace Sys2Proof.Config

/-- Machine slots 0 to 1023 (1.1). -/
def machineSlots : Nat := 1024
/-- Account slots 0 to 255 (3.1). -/
def accountSlots : Nat := 256
/-- Load order slots 0 to 7 (10.1). -/
def loadSlots : Nat := 8
/-- Receive FIFO entries (2.2). -/
def fifoDepth : Nat := 32
/-- Greatest tag ID, 2^48 − 1 (1.1). -/
def maxTag : Nat := 281474976710655
/-- 2^63 − 1, where balances and period figures saturate (R41). -/
def moneyMax : Nat := 9223372036854775807
/-- 2^40 − 1 µL, where session, run and order figures saturate (7.1, 9.3, 10.1). -/
def volumeMax : Nat := 1099511627775
/-- 2^48 − 1 µL, where unattributed volume saturates (8.1). -/
def unattributedMax : Nat := 281474976710655
/-- 65,535, where two-byte counts saturate. -/
def countMax : Nat := 65535
/-- The totaliser counts modulo 10^14 µL (R148). -/
def totaliserModulus : Nat := 100000000000000
/-- µL in a litre (0.4). -/
def litre : Nat := 1000000
/-- Silence timer of a reader port, ms (R32). -/
def silenceTime : Nat := 5000
/-- Hold-off of the power-fail warning, ms (R183). -/
def holdOffTime : Nat := 20
/-- The inlet valve watch looks at windows from 10 s after the closing instant (R175). -/
def valveWatchDelay : Nat := 10000
/-- Seconds of a day (R180). -/
def dayLength : Nat := 86400
/-- The site clock count wraps at 2^32 (R180). -/
def clockModulus : Nat := 4294967296

/-- FREE VALUE. What a figure of a record reads after more is subtracted from it than it holds. R44, R43
and R63 say this never happens to records the controller has written, and R2 says so of the allowance remainder; a
damaged record may hold other figures, and the spec states no result. -/
opaque belowZero : Nat → Nat → Nat

/-- FREE VALUE. The flow rate of a window of `n` pulses of volume `pv` whose first and last captures are
equal. R140 says the interval is at least 4 µs and states no result for 0. -/
opaque flowAtZeroInterval : Nat → Nat → Nat

/-- FREE VALUE. The gross volume of a gauge that completes on a compartment without a strapping table.
R74 starts no such gauge and R70 keeps the table while one runs. -/
opaque grossWithoutTable : Nat → Nat

end Sys2Proof.Config
end

