-- ==== Sys2Proof/Machine/State.lean ====
section
/-! DEFINITION. The state of the controller: every record, table, buffer, timer, count, mode and pin the spec
gives it, as plain data, and its contents right after reset. Fields that are the model's own, not the spec's,
say so. -/

namespace Sys2Proof.Machine

/-- A sparse table of numbered slots: a slot that is not listed is FREE. The canonical form lists slots in
strictly rising order (`Table.wf`). -/
abbrev Table (α : Type) := List (Nat × α)

/-! ### Machine Table (Chapter 1) -/

/-- States of a non-FREE machine record (R5). -/
inductive MachineState where
  | active | suspended | retiring | quarantined
deriving DecidableEq, Repr

/-- Why a session stopped or closed (R113). -/
inductive StopCause where
  | holdReached | hostStop | nozzleHung | tagChanged | pauseExpired | notStarted | abandoned | noFlow
  | overspeed | fault | emergency | vehicleMoved | power | reset
deriving DecidableEq, Repr

/-- The last fill sub-record (1.1). -/
structure LastFill where
  time : Nat
  hose : HoseId
  grade : Grade
  session : Nat
  net : Nat
  cause : StopCause
deriving DecidableEq, Repr

/-- A non-FREE machine record (1.1). -/
structure MachineRecord where
  state : MachineState
  number : Nat
  account : Nat
  manualPermitted : Bool
  fuel : Option Tank
  fluid : Option Tank
  allowance : Nat
  used : Nat
  held : Nat
  overrun : Nat
  fuelLink : Option HoseId
  fluidLink : Option HoseId
  fillCount : Nat
  lastFill : Option LastFill
  checkWord : BitVec 32
deriving DecidableEq, Repr

/-- What a tag index entry names: a machine slot and one of its tanks (1.3). The index is a table keyed by
tag ID. -/
structure TagTarget where
  slot : Nat
  tank : TankKind
deriving DecidableEq, Repr

/-! ### Reader ports (Chapter 2) -/

/-- The line condition of a received character (R26). -/
inductive LineCondition where
  | good | parity | framing
deriving DecidableEq, Repr

/-- What a port's receiver remembers of its line (R26): nothing it would report on, a character delivered whose gap has had
no idle event yet, or a break already reported. -/
inductive Receiver where
  | quiet | delivered | breaking
deriving DecidableEq, Repr

/-- The condition of a FIFO entry: the line's, or OVERRUN (R27). -/
inductive EntryCondition where
  | good | parity | framing | overrun
deriving DecidableEq, Repr

/-- Line events that take no FIFO entry (R27). -/
inductive LineEvent where
  | idle | lineBreak
deriving DecidableEq, Repr

/-- A FIFO entry with the events attached to it, in the order reported (R27). -/
structure FifoEntry where
  data : Byte
  condition : EntryCondition
  events : List LineEvent
deriving DecidableEq, Repr

/-- Kinds of frame damage (2.3). -/
inductive Damage where
  | parity | framing | overrun | idle | lineBreak | length
deriving DecidableEq, Repr

/-- A frame in assembly (2.3): the bytes taken so far in order, the expected count, the damage mark. -/
structure ReaderFrame where
  bytes : List Byte
  expected : Option Nat
  damage : Option Damage
deriving DecidableEq, Repr

/-- Reader condition (R32). -/
inductive ReaderCondition where
  | waiting | live | absent
deriving DecidableEq, Repr

/-- The present tag of a presence record with its attendant fields (2.6). -/
structure Presence where
  tag : Nat
  quality : Nat
  firstSeen : Nat
  lastSeen : Nat
  /-- instant in ms at which the tag is lost if not read again -/
  expiry : Nat
deriving DecidableEq, Repr

/-- Tag events a port hands to its Hose Controller (R37). -/
inductive TagEvent where
  | present (tag : Nat)
  | lost (tag : Nat)
  | changed (old new : Nat)
deriving DecidableEq, Repr

/-- A reader port (Chapter 2). `frame = none` is HUNT. The candidate's count is always 1 (2.6). -/
structure Reader where
  baud : Nat
  minQuality : Nat
  grace : Nat
  receiver : Receiver
  fifo : List FifoEntry
  highWater : Nat
  frame : Option ReaderFrame
  condition : ReaderCondition
  /-- instant in ms at which the silence timer last started (R32) -/
  silenceStart : Nat
  present : Option Presence
  candidate : Option Nat
  runCount : Nat
  good : Nat
  damaged : Nat
  rejected : Nat
  /-- events raised and not yet taken by the Hose Controller, first raised first (R37) -/
  events : List TagEvent
deriving DecidableEq, Repr

/-! ### Account Table (Chapter 3) -/

/-- States of a non-FREE account record (3.2). -/
inductive AccountState where
  | opened | stopped | quarantined
deriving DecidableEq, Repr

/-- The previous statement (3.1). -/
structure Statement where
  period : Nat
  closeTime : Nat
  figures : PeriodFigures
  unread : Bool
deriving DecidableEq, Repr

/-- A non-FREE account record (3.1). -/
structure AccountRecord where
  state : AccountState
  number : Nat
  tier : Tier
  limit : Nat
  balance : Nat
  held : Nat
  openSessions : Nat
  references : Nat
  period : Nat
  current : PeriodFigures
  previous : Option Statement
  checkWord : BitVec 32
deriving DecidableEq, Repr

/-! ### Inventory Unit (Chapter 4) -/

inductive CompState where
  | inService | outOfService | loading
deriving DecidableEq, Repr

/-- Result of a gauge (4.1). -/
inductive GaugeStatus where
  | settled | unsettled | overRange | probeFault
deriving DecidableEq, Repr

/-- The figures of a gauge that was not a PROBE_FAULT (4.1). -/
structure GaugeFigures where
  level : Nat
  temperature : Int
  gross : Nat
  net : Nat
  variance : Int
deriving DecidableEq, Repr

/-- The last gauge sub-record (4.1); the figures are absent for PROBE_FAULT. -/
structure GaugeResult where
  time : Nat
  status : GaugeStatus
  figures : Option GaugeFigures
  samples : Nat
deriving DecidableEq, Repr

inductive GaugeOrigin where
  | host | load
deriving DecidableEq, Repr

inductive GaugeOutcome where
  | none | completed | aborted
deriving DecidableEq, Repr

/-- A gauge in flight: its origin, the GOOD samples taken, and the levels and clamped temperatures of the
latest 16 of them, latest first (R75). -/
structure Gauge where
  origin : GaugeOrigin
  samples : Nat
  recent : List (Nat × Int)
deriving DecidableEq, Repr

/-- A compartment record (4.1) with its present probe sample (R72). `gauge = none` is "no gauge in flight". -/
structure Compartment where
  state : CompState
  grade : Option Grade
  capacity : Nat
  book : Int
  base : Nat
  loaded : Nat
  dispensed : Nat
  committed : Nat
  threshold : Nat
  restockNeeded : Bool
  strap : Option (List StrapPoint)
  lastGauge : Option GaugeResult
  gauge : Option Gauge
  outcome : GaugeOutcome
  sample : RawSample
deriving DecidableEq, Repr

/-! ### Hose points, sessions and proving runs (Chapters 5, 6, 7 and 9) -/

/-- Hose states (R195). -/
inductive HoseState where
  | idle | referred | ready | flowing | slowing | paused | stopping | complete | locked | outOfService
  | proveReady | proveFlowing | proveHeld
deriving DecidableEq, Repr

/-- Identity kinds (5.3). -/
inductive IdentityKind where
  | tag | range | referred | manual
deriving DecidableEq, Repr

/-- Refusal reasons (R195). -/
inductive Reason where
  | estop | vehicleMoving | hoseUnavailable | uncalibrated | uncollected | suspended | retired | corrupt
  | inSession | misfuel | accountStopped | unknownTag | noRecord | manualRefused | wrongGrade | allowance
  | credit | limit | noStock | hostRefused | referTimeout | abandoned
deriving DecidableEq, Repr

/-- The last refusal field (R81). -/
structure LastRefusal where
  time : Nat
  tag : Option Nat
  reason : Reason
deriving DecidableEq, Repr

inductive PauseReason where
  | operator | tagLost
deriving DecidableEq, Repr

/-- The session record without its last refusal, which stands at the hose (7.1). -/
structure Session where
  number : Nat
  kind : IdentityKind
  tag : Option Nat
  machine : Option (Nat × TankKind)
  account : Nat
  compartment : CompId
  grade : Grade
  price : Nat
  hold : Nat
  moneyHold : Nat
  setPoint : Nat
  gross : Nat
  net : Nat
  overrun : Nat
  charge : Option Nat
  pauseCount : Nat
  pauseReason : Option PauseReason
  saturated : Bool
  uncompensated : Bool
  stopCause : Option StopCause
  authorised : Nat
  started : Option Nat
  ended : Option Nat
  due : Bool
  collected : Bool
deriving DecidableEq, Repr

inductive FlowEnd where
  | target | operator | nozzle
deriving DecidableEq, Repr

inductive RunOutcome where
  | running | updated | rejected | aborted | emergency | fault | timeout | reset
deriving DecidableEq, Repr

/-- What PROVE RESULT writes into the run record (9.3). `point` counts from 1. -/
structure RunResult where
  observed : Nat
  averageFlow : Nat
  point : Nat
  oldFactor : Nat
  newFactor : Nat
deriving DecidableEq, Repr

/-- A run record (9.3). -/
structure Run where
  compartment : CompId
  grade : Grade
  setPoint : Nat
  nominal : Nat
  indicated : Nat
  flowingTime : Nat
  /-- instant in ms at which the main valve opened, while flowing time runs (R160) -/
  flowOpened : Option Nat
  flowEnd : Option FlowEnd
  settled : Bool
  outcome : RunOutcome
  result : Option RunResult
deriving DecidableEq, Repr

inductive RewindOutcome where
  | none | stowed | limit | interrupted
deriving DecidableEq, Repr

/-- The host-set fields of a hose setup record, within their ranges (6.1). Class and service are views:
the class follows the hose, the service field follows the hose state (R99). -/
structure HoseSetup where
  preference : List CompId
  maxFlow : Nat
  minFill : Nat
  slowDown : Nat
  slowFlow : Nat
  lead : Nat
  startDuty : Nat
  readyTimeout : Nat
  resumeWindow : Nat
  noFlowWindows : Nat
  noFlowThreshold : Nat
  stopSettle : Nat
  creepLimit : Nat
  rewindLimit : Nat
  referDeadline : Nat
  collectionRequired : Bool
deriving DecidableEq, Repr

/-- The waiting request of a REFERRED hose (R132): the tag resolved and the range entry that referred it,
`none` for DEFAULT. -/
structure Waiting where
  tag : Nat
  entry : Option Nat
deriving DecidableEq, Repr

/-- The drives of a hose: pump, manifold, main valve, staged and active duty, reel motor (6.3, R104). -/
structure Outputs where
  pump : Bool
  manifold : Option CompId
  mainValve : Bool
  staged : Nat
  active : Nat
  reel : Bool
deriving DecidableEq, Repr

/-- One hose point: setup, outputs, rewind record, leak latch, session and run records, timers (as the
instant in ms at which they expire, absent while stopped) and window runs. -/
structure Hose where
  setup : HoseSetup
  lastSource : Option CompId
  state : HoseState
  /-- the state an OUT_OF_SERVICE hose will resume (R99) -/
  returnState : Option HoseState
  outputs : Outputs
  rewindOutcome : RewindOutcome
  leakLatch : Bool
  session : Option Session
  /-- number of the hose's last session, 0 before the first (R89, R95) -/
  lastNumber : Nat
  lastRefusal : Option LastRefusal
  waiting : Option Waiting
  /-- tag of the pair that has started its authorisation and has stayed complete since (R79); written anew when the nozzle is
  lifted -/
  paired : Option Nat
  referTimer : Option Nat
  readyTimer : Option Nat
  resumeTimer : Option Nat
  settleTimer : Option Nat
  rewindTimer : Option Nat
  lowFlowRun : Nat
  overspeedRun : Nat
  /-- a STOP-severity fault was found during the open session or the judged run (R122, R165) -/
  stopFaultFound : Bool
  /-- instant in ms of the closing of the main valve (R126, R160) -/
  closingInstant : Nat
  /-- the window in progress began at or after the closing instant (R126, R161) -/
  windowAfterClosing : Bool
  run : Option Run
deriving DecidableEq, Repr

/-! ### Field inputs (6.2) -/

/-- One value for each switch input of R100. As levels: `offHook`, `start` asserted, `stow` closed, `estop`
asserted, `park` brake applied, `coupled`, `high`, `powerFail` asserted, `sealClosed`. -/
structure Switches where
  offHook : ByHose Bool
  start : ByHose Bool
  stow : ByHose Bool
  estop : Bool
  park : Bool
  coupled : Bool
  high : ByFour Bool
  powerFail : Bool
  sealClosed : Bool
deriving DecidableEq, Repr

/-- Filtered levels, line temperature readings and change flags (R101). -/
structure FieldInputs where
  levels : Switches
  /-- latest line temperature readings, 0.1 °C, channels 1 to 4 -/
  lineTemp : ByFour Int
  changed : Switches
  pulserAChanged : ByFour Bool
  pulserBChanged : ByFour Bool
  tempChanged : ByHose Bool
deriving DecidableEq, Repr

/-! ### Metering Engine and Metrology Store (Chapters 8 and 9) -/

inductive Destination where
  | session | run | load | unattributed
deriving DecidableEq, Repr

/-- The window result (8.3). -/
structure WindowResult where
  meter : MeterId
  start : Nat
  length : Nat
  n : Nat
  q : Nat
  lf : Nat
  gross : Nat
  temperature : Int
  fallback : Bool
  vcf : Nat
  net : Nat
  destination : Destination
deriving DecidableEq, Repr

/-- A meter channel's context (8.1). -/
structure Channel where
  pinA : Bool
  pinB : Bool
  step : Int
  n : Nat
  first : Option Nat
  last : Option Nat
  debt : Nat
  reverseMark : Bool
  illegal : Nat
  grossResidue : Nat
  netResidue : Nat
  lastFlow : Nat
  probeValid : Bool
  unattributed : Nat
  totaliser : Nat
  wraps : Nat
  result : Option WindowResult
  /-- PULSER detail 1 was reported in this window (R137) -/
  fullReported : Bool
deriving DecidableEq, Repr

/-- A meter's record in the Metrology Store (9.1); the points are a first one and those after it. -/
structure MeterRecord where
  pulseVolume : Nat
  firstPoint : LinPoint
  morePoints : List LinPoint
  calibrated : Bool
  changes : Nat
deriving DecidableEq, Repr

structure GradeRecord where
  alpha : Nat
  fallback : Int
deriving DecidableEq, Repr

/-- What a write in progress will put into the store (R155, R156, R163). -/
inductive StoreChange where
  | meter (m : MeterId) (pulseVolume : Nat) (first : LinPoint) (more : List LinPoint)
  | grade (g : Grade) (record : GradeRecord)
  | factor (h : HoseId) (result : RunResult)
deriving DecidableEq, Repr

/-- A non-volatile write in progress with the command whose response waits for it. -/
structure StoreWrite where
  command : Instr
  change : StoreChange
deriving DecidableEq, Repr

/-- The Metrology Store (9.1). `restored` is store condition RESTORED. -/
structure MetrologyStore where
  meters : ByFour MeterRecord
  grades : ByGrade GradeRecord
  restored : Bool
  /-- MODEL's own: whether the contents would fail the check of R157 at the next reset -/
  damaged : Bool
  write : Option StoreWrite
deriving DecidableEq, Repr

/-! ### Load Controller (Chapter 10) -/

inductive LoadState where
  | planned | armed | loading | settling | complete | cancelled
deriving DecidableEq, Repr

inductive EndCause where
  | depotStopped | uncoupled | highLevel | ullage | hostAbort | emergency | fault | reset | armTimeout
deriving DecidableEq, Repr

/-- A non-FREE load order (10.1). -/
structure LoadOrder where
  state : LoadState
  compartment : CompId
  grade : Grade
  expected : Nat
  docket : List Byte
  gaugeBefore : Option Nat
  gross : Nat
  net : Nat
  gaugeAfter : Option Nat
  docketVariance : Option Int
  gaugeVariance : Option Int
  endCause : Option EndCause
  created : Nat
  armed : Option Nat
  flowStart : Option Nat
  flowEnd : Option Nat
  completed : Option Nat
deriving DecidableEq, Repr

/-- Inlet setup record (R167): idle time s, arm timeout min, settle time s, ullage %. -/
structure InletSetup where
  idle : Nat
  arm : Nat
  settle : Nat
  ullage : Nat
deriving DecidableEq, Repr

/-- The Load Controller: order slots, inlet setup, valve, lock, the figures of the active order. -/
structure LoadController where
  orders : Table LoadOrder
  setup : InletSetup
  valveOpen : Bool
  lock : Bool
  /-- µL, fixed at arming (R167) -/
  ullageLimit : Nat
  /-- the before gauge of the ARMED order has ended (R170) -/
  beforeEnded : Bool
  armTimer : Option Nat
  idleTimer : Option Nat
  settleTimer : Option Nat
  /-- closing instant in ms while the inlet valve watch runs (R175) -/
  watch : Option Nat
deriving DecidableEq, Repr

/-! ### Timebase and supply (Chapter 11) -/

inductive ResetKind where
  | cold | warm
deriving DecidableEq, Repr

inductive ResetCause where
  | powerUp | resetPin | restart | powerFail
deriving DecidableEq, Repr

structure ResetRecord where
  kind : ResetKind
  cause : ResetCause
  count : Nat
deriving DecidableEq, Repr

/-- The Timebase (Chapter 11). `now` is the MODEL's own count of 1 ms ticks. -/
structure Timebase where
  now : Nat
  /-- the capture counter, µs modulo 2^32 (R179) -/
  capture : Nat
  window : Nat
  pendingWindow : Nat
  /-- instant in ms at which the window in progress began -/
  windowStart : Nat
  count : Nat
  clockSet : Bool
  rolloverSecond : Nat
  /-- last second counted with main power present (R180) -/
  lastCounted : Nat
  lastRollover : Option Nat
  lastReset : ResetRecord
  /-- instant in ms at which the 20 ms hold-off ends, while it runs (R183) -/
  holdOff : Option Nat
deriving DecidableEq, Repr

/-- Whether the controller runs, is held in the warm reset of a power failure, or is without main power
(R183). -/
inductive PowerState where
  | running | held | unpowered
deriving DecidableEq, Repr

structure Supply where
  power : PowerState
  /-- the retention supply monitor's loss latch (R183) -/
  lossLatch : Bool
deriving DecidableEq, Repr

/-! ### Fault banks and notices (12.1, 12.2) -/

inductive Severity where
  | advisory | recovered | stop
deriving DecidableEq, Repr

/-- Error kinds across all banks (R195). -/
inductive ErrorKind where
  | lineError | readerSilent | leak | valve | overspeed | noFlow | reel | pulser | reverse | tempProbe
  | probe | unsettled | highLevel | inletValve | recordCheck
deriving DecidableEq, Repr

/-- The thirteen banks (12.1). -/
inductive BankId where
  | reader (h : HoseId)
  | hose (h : HoseId)
  | meter (m : MeterId)
  | gauge
  | inlet
  | table
deriving DecidableEq, Repr

structure FaultRecord where
  severity : Severity
  kind : ErrorKind
  index : Nat
  detail : Int
  time : Nat
deriving DecidableEq, Repr

/-- A fault bank (12.1): enable set (bit 0 the bank's first kind), overflow, and the record, present exactly
while the bank is valid. -/
structure Bank where
  enable : BitVec 8
  overflow : Bool
  record : Option FaultRecord
deriving DecidableEq, Repr

structure Banks where
  reader : ByHose Bank
  hose : ByHose Bank
  meter : ByFour Bank
  gauge : Bank
  inlet : Bank
  table : Bank
deriving DecidableEq, Repr

/-- Members of the notice set: a kind with its source (12.2). -/
inductive Notice where
  | fault (b : BankId)
  | refer (h : HoseId)
  | sessionEnd (h : HoseId)
  | load (slot : Nat)
  | doneHose (h : HoseId)
  | doneComp (c : CompId)
  | restock (c : CompId)
  | day
  | restarted
deriving DecidableEq, Repr

/-! ### Command Port (12.3) -/

/-- Status codes (12.4). -/
inductive Status where
  | ok | accepted | notReady | checkFailed | invalid | malformed | noRecord | duplicateTag
  | duplicateNumber | tableFull | inUse | busy | state | sealed | belowCommitted | overSettle | unread
  | corrupt | accountStopped
deriving DecidableEq, Repr

/-- What a command answers: its status and payload. -/
structure Answer where
  status : Status
  payload : List Byte
deriving DecidableEq, Repr

inductive LinkState where
  | idle | executing | result
deriving DecidableEq, Repr

/-- What a taken frame calls for: a command to run, or an answer without execution (R191). -/
inductive Todo where
  | run (command : Instr)
  | reply (status : Status)
deriving DecidableEq, Repr

/-- A frame taken by the port. `wanted` is cleared by a link reset: the command then completes and its
response is discarded (R192). -/
structure Taken where
  code : Byte
  sequence : Byte
  todo : Todo
  wanted : Bool
deriving DecidableEq, Repr

/-- The pending response: the echoed bytes and the answer (R191). -/
structure Response where
  code : Byte
  sequence : Byte
  answer : Answer
deriving DecidableEq, Repr

/-- The Command Port. -/
structure Port where
  link : LinkState
  /-- the frame whose command its block is executing -/
  executing : Option Taken
  /-- a frame taken after a link reset while that command still runs (R192) -/
  waiting : Option Taken
  response : Option Response
  overrun : Bool
  /-- MODEL's own: the bytes shifted out in the last SPI transaction -/
  shifted : List Byte
  /-- MODEL's own: the answer of the last host command a block completed -/
  answer : Option Answer
deriving DecidableEq, Repr

/-- The controller. -/
structure State where
  machines : Table MachineRecord
  tagIndex : Table TagTarget
  ranges : Vector RangeEntry 8
  defaultPolicy : Policy
  readers : ByHose Reader
  accounts : Table AccountRecord
  prices : ByFour (ByGrade Nat)
  compartments : ByFour Compartment
  hoses : ByHose Hose
  field : FieldInputs
  drivePermit : Bool
  channels : ByFour Channel
  store : MetrologyStore
  loads : LoadController
  timebase : Timebase
  supply : Supply
  banks : Banks
  notices : List Notice
  noticeMask : BitVec 8
  port : Port
  /-- the commands that wait, first in first out -/
  pending : List Instr
deriving DecidableEq, Repr

/-- This block raises no fault that stops it: a command it cannot execute is answered with a status, and a
fault of the field is recorded in a bank while the controller runs on (R185). The type is empty. -/
inductive Fault where
deriving DecidableEq, Repr

/-- Refusals. -/
inductive Refusal where
  /-- Raised by `exec` alone, for a command that has no meaning yet; safe, since nothing is claimed of it. -/
  | notModelled (mnemonic : String)
deriving DecidableEq, Repr

/-! ### Reset values -/

/-- R25. -/
def RangeEntry.cold : RangeEntry where
  enabled := false
  base := 0
  mask := 0
  policy := .refuse
  account := 0
  grades := ⟨true, true, false⟩
  limit := 20000

/-- R40, at instant `now`. Tag events not yet taken are dropped: the model's choice (notes/assumptions/39.md). -/
def Reader.cold (now : Nat) : Reader where
  baud := 19200
  minQuality := 40
  grace := 1500
  receiver := .quiet
  fifo := []
  highWater := 0
  frame := none
  condition := .waiting
  silenceStart := now
  present := none
  candidate := none
  runCount := 0
  good := 0
  damaged := 0
  rejected := 0
  events := []

/-- R78. The present probe sample before the first sampling is the model's choice (notes/assumptions/4.md). -/
def Compartment.cold : Compartment where
  state := .outOfService
  grade := none
  capacity := 100
  book := 0
  base := 0
  loaded := 0
  dispensed := 0
  committed := 0
  threshold := 0
  restockNeeded := false
  strap := none
  lastGauge := none
  gauge := none
  outcome := .none
  sample := { statusFault := false, level := 0, temperature := 0 }

/-- Hardware flow ceilings (0.1, 6.1). -/
def HoseId.flowCeiling : HoseId → Nat
  | .h1 => 1000
  | .h2 => 200
  | .h3 => 80

/-- Cold reset values of the setup record (6.1). -/
def HoseSetup.cold (h : HoseId) : HoseSetup where
  preference := match h with
    | .h3 => [.four]
    | _ => [.one, .two, .three, .four]
  maxFlow := HoseId.flowCeiling h
  minFill := match h with
    | .h3 => 5
    | _ => 20
  slowDown := 10
  slowFlow := 60
  lead := 15
  startDuty := 400
  readyTimeout := 120
  resumeWindow := 60
  noFlowWindows := 20
  noFlowThreshold := 2
  stopSettle := 5
  creepLimit := 5
  rewindLimit := 40
  referDeadline := 30
  collectionRequired := false

/-- Every output at rest (R111). -/
def Outputs.rest : Outputs where
  pump := false
  manifold := none
  mainValve := false
  staged := 0
  active := 0
  reel := false

/-- R95, R111, R134, R164. -/
def Hose.cold (h : HoseId) : Hose where
  setup := HoseSetup.cold h
  lastSource := none
  state := .idle
  returnState := none
  outputs := Outputs.rest
  rewindOutcome := .none
  leakLatch := false
  session := none
  lastNumber := 0
  lastRefusal := none
  waiting := none
  paired := none
  referTimer := none
  readyTimer := none
  resumeTimer := none
  settleTimer := none
  rewindTimer := none
  lowFlowRun := 0
  overspeedRun := 0
  stopFaultFound := false
  closingInstant := 0
  windowAfterClosing := false
  run := none

/-- Switch levels at the first reset, which the world outside decides: the model's choice
(notes/assumptions/5.md) is a parked truck with every hose stowed and the seal intact. -/
def Switches.parked : Switches where
  offHook := ByHose.all false
  start := ByHose.all false
  stow := ByHose.all true
  estop := false
  park := true
  coupled := false
  high := ByFour.all false
  powerFail := false
  sealClosed := false

/-- No change flag set (R101). -/
def Switches.none : Switches where
  offHook := ByHose.all false
  start := ByHose.all false
  stow := ByHose.all false
  estop := false
  park := false
  coupled := false
  high := ByFour.all false
  powerFail := false
  sealClosed := false

/-- R152. -/
def Channel.cold : Channel where
  pinA := false
  pinB := false
  step := 0
  n := 0
  first := none
  last := none
  debt := 0
  reverseMark := false
  illegal := 0
  grossResidue := 0
  netResidue := 0
  lastFlow := 0
  probeValid := true
  unattributed := 0
  totaliser := 0
  wraps := 0
  result := none
  fullReported := false

/-- As shipped (9.1). -/
def MeterRecord.shipped : MeterRecord where
  pulseVolume := 10000
  firstPoint := { flow := 0, factor := 65536 }
  morePoints := []
  calibrated := false
  changes := 0

/-- As shipped (9.1). -/
def GradeRecord.shipped : GradeRecord where
  alpha := 0
  fallback := 150

/-- R167, R178. -/
def LoadController.cold : LoadController where
  orders := []
  setup := { idle := 30, arm := 15, settle := 120, ullage := 97 }
  valveOpen := false
  lock := false
  ullageLimit := 0
  beforeEnded := false
  armTimer := none
  idleTimer := none
  settleTimer := none
  watch := none

/-- R184: nothing recorded, `n` kinds enabled. -/
def Bank.cold (n : Nat) : Bank where
  enable := BitVec.ofNat 8 (2 ^ n - 1)
  overflow := false
  record := none

/-- R184, with the number of kinds each bank has (12.1). -/
def Banks.cold : Banks where
  reader := ByHose.all (Bank.cold 2)
  hose := ByHose.all (Bank.cold 5)
  meter := ByFour.all (Bank.cold 3)
  gauge := Bank.cold 2
  inlet := Bank.cold 2
  table := Bank.cold 1

/-- R190, R192: IDLE, no response, overrun mark clear. -/
def Port.cold : Port where
  link := .idle
  executing := none
  waiting := none
  response := none
  overrun := false
  shifted := []
  answer := none

/-- R179, R180, R183: the Timebase right after a cold reset. -/
def Timebase.cold : Timebase where
  now := 0
  capture := 0
  window := 200
  pendingWindow := 200
  windowStart := 0
  count := 0
  clockSet := false
  rolloverSecond := 0
  lastCounted := 0
  lastRollover := none
  lastReset := { kind := .cold, cause := .powerUp, count := 0 }
  holdOff := none

/-- The store right after the first cold reset of a part as shipped: every change counter has risen by the
cold reset's 1 (R152, R157). -/
def MetrologyStore.first : MetrologyStore where
  meters := ByFour.all { MeterRecord.shipped with changes := 1 }
  grades := ByGrade.all GradeRecord.shipped
  restored := false
  damaged := false
  write := none

/-- The controller right after the first cold reset of a part as shipped: every block at its cold reset
values, RESTARTED raised (R188), DRIVE PERMIT evaluated (R110). -/
def State.reset : State where
  machines := []
  tagIndex := []
  ranges := Vector.replicate 8 RangeEntry.cold
  defaultPolicy := .refuse
  readers := ByHose.all (Reader.cold 0)
  accounts := []
  prices := ByFour.all (ByGrade.all 0)
  compartments := ByFour.all Compartment.cold
  hoses := ⟨Hose.cold .h1, Hose.cold .h2, Hose.cold .h3⟩
  field :=
    { levels := Switches.parked
      lineTemp := ByFour.all 150
      changed := Switches.none
      pulserAChanged := ByFour.all false
      pulserBChanged := ByFour.all false
      tempChanged := ByHose.all false }
  drivePermit := true
  channels := ByFour.all Channel.cold
  store := MetrologyStore.first
  loads := LoadController.cold
  timebase := Timebase.cold
  supply := { power := .running, lossLatch := false }
  banks := Banks.cold
  notices := [.restarted]
  noticeMask := BitVec.ofNat 8 255
  port := Port.cold
  pending := []

end Sys2Proof.Machine
end

