-- ==== Sys2Proof/Machine/Encoding.lean ====
section
/-! DEFINITION. The wire encoding of fields and records (R194, R195), the three cyclic checks (R22, R30, R191)
and the check words of machine and account records (R22, R57). -/

namespace Sys2Proof.Machine

/-! ### Fields (R194) -/

/-- A number in `k` bytes, little-endian. -/
def le : Nat → Nat → List Byte
  | 0, _ => []
  | k + 1, n => BitVec.ofNat 8 n :: le k (n / 256)

def u8 (n : Nat) : List Byte := le 1 n
def u16 (n : Nat) : List Byte := le 2 n
def u32 (n : Nat) : List Byte := le 4 n
def u64 (n : Nat) : List Byte := le 8 n

/-- A signed figure in `k` bytes, two's complement, little-endian. -/
def leSigned (k : Nat) (x : Int) : List Byte := le k (x % (2 ^ (8 * k) : Nat)).toNat

/-- A tag ID: 6 bytes, most significant byte first. -/
def tagBytes (tag : Nat) : List Byte := (le 6 tag).reverse

/-- A yes-or-no field. -/
def flagByte (b : Bool) : List Byte := if b then [1] else [0]

/-- A named value of two: the first listed is 0. -/
def firstOf (isFirst : Bool) : List Byte := if isFirst then [0] else [1]

/-- An optional field: a presence byte ahead of it. -/
def optional {α : Type} (f : α → List Byte) : Option α → List Byte
  | none => [0]
  | some a => 1 :: f a

/-- A list: a count byte ahead of its items. -/
def counted {α : Type} (f : α → List Byte) (xs : List α) : List Byte := u8 xs.length ++ xs.flatMap f

/-! ### Named values (R195, and otherwise the order in which the manual lists them) -/

def gradeCode : Grade → Nat
  | .g1 => 0
  | .g2 => 1
  | .g3 => 2

/-- A compartment's grade: G1, G2, G3, NONE (4.1). -/
def compGradeCode : Option Grade → Nat
  | some g => gradeCode g
  | none => 3

def gradeSetByte (s : GradeSet) : List Byte :=
  u8 ((if s.g1 then 1 else 0) + (if s.g2 then 2 else 0) + (if s.g3 then 4 else 0))

def tankCode : TankKind → Nat
  | .fuel => 0
  | .fluid => 1

def policyCode : Policy → Nat
  | .refuse => 0
  | .refer => 1
  | .allow => 2

/-- FREE, ACTIVE, SUSPENDED, RETIRING, QUARANTINED (1.1). -/
def machineStateCode : MachineState → Nat
  | .active => 1
  | .suspended => 2
  | .retiring => 3
  | .quarantined => 4

/-- FREE, OPEN, STOPPED, QUARANTINED (3.1). -/
def accountStateCode : AccountState → Nat
  | .opened => 1
  | .stopped => 2
  | .quarantined => 3

def stopCauseCode : StopCause → Nat
  | .holdReached => 0
  | .hostStop => 1
  | .nozzleHung => 2
  | .tagChanged => 3
  | .pauseExpired => 4
  | .notStarted => 5
  | .abandoned => 6
  | .noFlow => 7
  | .overspeed => 8
  | .fault => 9
  | .emergency => 10
  | .vehicleMoved => 11
  | .power => 12
  | .reset => 13

/-- R195. -/
def hoseStateCode : HoseState → Nat
  | .idle => 0
  | .referred => 1
  | .ready => 2
  | .flowing => 3
  | .slowing => 4
  | .paused => 5
  | .stopping => 6
  | .complete => 7
  | .locked => 8
  | .outOfService => 9
  | .proveReady => 10
  | .proveFlowing => 11
  | .proveHeld => 12

/-- R195. -/
def identityCode : IdentityKind → Nat
  | .tag => 0
  | .range => 1
  | .referred => 2
  | .manual => 3

/-- R195. -/
def reasonCode : Reason → Nat
  | .estop => 0
  | .vehicleMoving => 1
  | .hoseUnavailable => 2
  | .uncalibrated => 3
  | .uncollected => 4
  | .suspended => 5
  | .retired => 6
  | .corrupt => 7
  | .inSession => 8
  | .misfuel => 9
  | .accountStopped => 10
  | .unknownTag => 11
  | .noRecord => 12
  | .manualRefused => 13
  | .wrongGrade => 14
  | .allowance => 15
  | .credit => 16
  | .limit => 17
  | .noStock => 18
  | .hostRefused => 19
  | .referTimeout => 20
  | .abandoned => 21

/-- R195. -/
def errorCode : ErrorKind → Nat
  | .lineError => 0
  | .readerSilent => 1
  | .leak => 2
  | .valve => 3
  | .overspeed => 4
  | .noFlow => 5
  | .reel => 6
  | .pulser => 7
  | .reverse => 8
  | .tempProbe => 9
  | .probe => 10
  | .unsettled => 11
  | .highLevel => 12
  | .inletValve => 13
  | .recordCheck => 14

/-- R195. -/
def severityCode : Severity → Nat
  | .advisory => 0
  | .recovered => 1
  | .stop => 2

/-- 12.4. -/
def statusCode : Status → Nat
  | .ok => 0x00
  | .accepted => 0x01
  | .notReady => 0x02
  | .checkFailed => 0x03
  | .invalid => 0x04
  | .malformed => 0x05
  | .noRecord => 0x06
  | .duplicateTag => 0x07
  | .duplicateNumber => 0x08
  | .tableFull => 0x09
  | .inUse => 0x0A
  | .busy => 0x0B
  | .state => 0x0C
  | .sealed => 0x0D
  | .belowCommitted => 0x0E
  | .overSettle => 0x0F
  | .unread => 0x10
  | .corrupt => 0x11
  | .accountStopped => 0x12

/-- READER 1–3 are banks 1–3, HOSE 1–3 banks 4–6, METER 1–4 banks 7–10, then GAUGE, INLET, TABLE (12.1). -/
def bankNumber : BankId → Nat
  | .reader h => h.number
  | .hose h => 3 + h.number
  | .meter m => 6 + m.number
  | .gauge => 11
  | .inlet => 12
  | .table => 13

def compStateCode : CompState → Nat
  | .inService => 0
  | .outOfService => 1
  | .loading => 2

def gaugeStatusCode : GaugeStatus → Nat
  | .settled => 0
  | .unsettled => 1
  | .overRange => 2
  | .probeFault => 3

def gaugeOutcomeCode : GaugeOutcome → Nat
  | .none => 0
  | .completed => 1
  | .aborted => 2

def gaugeOriginCode : GaugeOrigin → Nat
  | .host => 0
  | .load => 1

def pauseReasonCode : PauseReason → Nat
  | .operator => 0
  | .tagLost => 1

def flowEndCode : FlowEnd → Nat
  | .target => 0
  | .operator => 1
  | .nozzle => 2

def runOutcomeCode : RunOutcome → Nat
  | .running => 0
  | .updated => 1
  | .rejected => 2
  | .aborted => 3
  | .emergency => 4
  | .fault => 5
  | .timeout => 6
  | .reset => 7

def rewindOutcomeCode : RewindOutcome → Nat
  | .none => 0
  | .stowed => 1
  | .limit => 2
  | .interrupted => 3

def destinationCode : Destination → Nat
  | .session => 0
  | .run => 1
  | .load => 2
  | .unattributed => 3

def readerConditionCode : ReaderCondition → Nat
  | .waiting => 0
  | .live => 1
  | .absent => 2

/-- FREE, PLANNED, ARMED, LOADING, SETTLING, COMPLETE, CANCELLED (10.1). -/
def loadStateCode : LoadState → Nat
  | .planned => 1
  | .armed => 2
  | .loading => 3
  | .settling => 4
  | .complete => 5
  | .cancelled => 6

def endCauseCode : EndCause → Nat
  | .depotStopped => 0
  | .uncoupled => 1
  | .highLevel => 2
  | .ullage => 3
  | .hostAbort => 4
  | .emergency => 5
  | .fault => 6
  | .reset => 7
  | .armTimeout => 8

def resetKindCode : ResetKind → Nat
  | .cold => 0
  | .warm => 1

def resetCauseCode : ResetCause → Nat
  | .powerUp => 0
  | .resetPin => 1
  | .restart => 2
  | .powerFail => 3

/-- A tank link: none is 0, H1 to H3 are 1 to 3 (1.1). -/
def linkCode : Option HoseId → Nat
  | none => 0
  | some h => h.number

/-- A compartment 1–4 or none, as one byte with 0 for none (6.1, 6.3). -/
def compOrNone : Option CompId → Nat
  | none => 0
  | some c => c.number

/-! ### Cyclic checks -/

/-- One byte, most significant bit first, through a register of `w` bits without reflection. -/
def crcByte {w : Nat} (poly : BitVec w) (reg : BitVec w) (b : Byte) : BitVec w :=
  [7, 6, 5, 4, 3, 2, 1, 0].foldl
    (fun r i => if xor r.msb (b.getLsbD i) then (r <<< 1) ^^^ poly else r <<< 1) reg

/-- `f n`, written so that `n` is evaluated first: the kernel then carries a number along a fold, not a growing
expression. -/
def evaluated {α : Type} (n : Nat) (f : Nat → α) : α :=
  match n with
  | 0 => f 0
  | k + 1 => f (k + 1)

/-- The register after a list of bytes, first byte first. -/
def crcFrom {w : Nat} (poly : BitVec w) (reg : BitVec w) : List Byte → BitVec w
  | [] => reg
  | b :: rest => evaluated (crcByte poly reg b).toNat (fun n => crcFrom poly (BitVec.ofNat w n) rest)

/-- R22, R57: polynomial 0x04C11DB7, initial value 0xFFFFFFFF. -/
def crc32 (bytes : List Byte) : BitVec 32 := crcFrom (BitVec.ofNat 32 0x04C11DB7) (BitVec.ofNat 32 0xFFFFFFFF) bytes

/-- R191: polynomial 0x1021, initial value 0xFFFF. -/
def crc16 (bytes : List Byte) : BitVec 16 := crcFrom (BitVec.ofNat 16 0x1021) (BitVec.ofNat 16 0xFFFF) bytes

/-- R30: polynomial x^8 + x^2 + x + 1, initial value 0. -/
def crc8 (bytes : List Byte) : BitVec 8 := crcFrom (BitVec.ofNat 8 0x07) (BitVec.ofNat 8 0) bytes

/-! ### Machine and account records (1.1, 3.1) -/

def tankBytes (t : Tank) : List Byte :=
  tagBytes t.tag ++ gradeSetByte t.grades ++ u16 t.capacity ++ optional u16 t.ceiling

def lastFillBytes (f : LastFill) : List Byte :=
  u32 f.time ++ u8 f.hose.number ++ u8 (gradeCode f.grade) ++ u16 f.session ++ u64 f.net
    ++ u8 (stopCauseCode f.cause)

/-- The fields of a machine record from state to last fill, in the order of the table of 1.1; one link byte
for each tank present. -/
def machineBody (m : MachineRecord) : List Byte :=
  u8 (machineStateCode m.state) ++ u32 m.number ++ u8 m.account ++ flagByte m.manualPermitted
    ++ optional tankBytes m.fuel ++ optional tankBytes m.fluid ++ u16 m.allowance ++ u64 m.used
    ++ u64 m.held ++ u64 m.overrun
    ++ (if m.fuel.isSome then u8 (linkCode m.fuelLink) else [])
    ++ (if m.fluid.isSome then u8 (linkCode m.fluidLink) else [])
    ++ u16 m.fillCount ++ optional lastFillBytes m.lastFill

/-- The check word of a machine record (R22). -/
def machineCheck (m : MachineRecord) : BitVec 32 := crc32 (machineBody m)

/-- A machine record with a fresh check word (R22). -/
def machineStamp (m : MachineRecord) : MachineRecord := { m with checkWord := machineCheck m }

/-- A machine record as MACHINE READ carries it (R15). -/
def machineBytes (m : MachineRecord) : List Byte := machineBody m ++ u32 m.checkWord.toNat

def periodFiguresBytes (p : PeriodFigures) : List Byte :=
  u64 p.net.g1 ++ u64 p.net.g2 ++ u64 p.net.g3 ++ u64 p.charges ++ u16 p.fills

def statementBytes (t : Statement) : List Byte :=
  u16 t.period ++ u32 t.closeTime ++ periodFiguresBytes t.figures ++ flagByte t.unread

/-- The price tier 0–3. -/
def tierCode : Tier → Nat
  | .one => 0
  | .two => 1
  | .three => 2
  | .four => 3

/-- The fields of an account record from state to previous statement, in the order of the table of 3.1. -/
def accountBody (a : AccountRecord) : List Byte :=
  u8 (accountStateCode a.state) ++ u16 a.number ++ u8 (tierCode a.tier) ++ u64 a.limit ++ u64 a.balance
    ++ u64 a.held ++ u8 a.openSessions ++ u16 a.references ++ u16 a.period
    ++ periodFiguresBytes a.current ++ optional statementBytes a.previous

/-- The check word of an account record (R57). -/
def accountCheck (a : AccountRecord) : BitVec 32 := crc32 (accountBody a)

/-- An account record with a fresh check word (R57). -/
def accountStamp (a : AccountRecord) : AccountRecord := { a with checkWord := accountCheck a }

/-- An account record as ACCOUNT READ carries it (R50). -/
def accountBytes (a : AccountRecord) : List Byte := accountBody a ++ u32 a.checkWord.toNat

/-! ### The other records -/

/-- A range entry as RANGE READ carries it (R20). Base and mask are numbers of up to 2^48 − 1, no tag IDs. -/
def rangeBytes (e : RangeEntry) : List Byte :=
  flagByte e.enabled ++ u64 e.base ++ u64 e.mask ++ u8 (policyCode e.policy) ++ u8 e.account
    ++ gradeSetByte e.grades ++ u16 e.limit

def strapPointBytes (p : StrapPoint) : List Byte := u16 p.level ++ u16 p.volume

/-- The last gauge sub-record (4.1): each field absent for PROBE_FAULT is an optional field. -/
def gaugeResultBytes (g : GaugeResult) : List Byte :=
  u32 g.time ++ u8 (gaugeStatusCode g.status)
    ++ optional (fun f : GaugeFigures => u16 f.level) g.figures
    ++ optional (fun f : GaugeFigures => leSigned 2 f.temperature) g.figures
    ++ optional (fun f : GaugeFigures => u64 f.gross) g.figures
    ++ optional (fun f : GaugeFigures => u64 f.net) g.figures
    ++ optional (fun f : GaugeFigures => leSigned 8 f.variance) g.figures
    ++ u8 g.samples

/-- A compartment record in the order of the table of 4.1. -/
def compartmentBytes (c : Compartment) : List Byte :=
  u8 (compStateCode c.state) ++ u8 (compGradeCode c.grade) ++ u16 c.capacity ++ leSigned 8 c.book
    ++ u64 c.base ++ u64 c.loaded ++ u64 c.dispensed ++ u64 c.committed ++ u16 c.threshold
    ++ flagByte c.restockNeeded ++ optional (counted strapPointBytes) c.strap
    ++ optional gaugeResultBytes c.lastGauge ++ flagByte c.gauge.isSome
    ++ optional (fun g : Gauge => u8 (gaugeOriginCode g.origin)) c.gauge
    ++ u8 (gaugeOutcomeCode c.outcome)

def lastRefusalBytes (r : LastRefusal) : List Byte :=
  u32 r.time ++ optional tagBytes r.tag ++ u8 (reasonCode r.reason)

/-- A session record without its last field, last refusal, in the order of the table of 7.1. The flags are
one byte, SATURATED at bit 0 and UNCOMPENSATED at bit 1, and machine and tank have one presence byte: the model's choices
(notes/assumptions/12.md). -/
def sessionBytes (s : Session) : List Byte :=
  u16 s.number ++ u8 (identityCode s.kind) ++ optional tagBytes s.tag
    ++ optional (fun p : Nat × TankKind => u16 p.1 ++ u8 (tankCode p.2)) s.machine
    ++ u8 s.account ++ u8 s.compartment.number ++ u8 (gradeCode s.grade) ++ u32 s.price ++ u16 s.hold
    ++ u64 s.moneyHold ++ u16 s.setPoint ++ u64 s.gross ++ u64 s.net ++ u64 s.overrun
    ++ optional u64 s.charge ++ u8 s.pauseCount
    ++ optional (fun r => u8 (pauseReasonCode r)) s.pauseReason
    ++ u8 ((if s.saturated then 1 else 0) + (if s.uncompensated then 2 else 0))
    ++ optional (fun c => u8 (stopCauseCode c)) s.stopCause
    ++ u32 s.authorised ++ optional u32 s.started ++ optional u32 s.ended
    ++ flagByte s.due ++ flagByte s.collected

/-- The class of a hose: diesel is 0, fluid is 1 (6.1). -/
def hoseClassCode : HoseId → Nat
  | .h3 => 1
  | _ => 0

/-- A hose setup record in the order of the table of 6.1. The service field follows the hose (R99). -/
def setupBytes (id : HoseId) (h : Hose) : List Byte :=
  u8 (hoseClassCode id) ++ firstOf (h.state != .outOfService)
    ++ counted (fun c : CompId => u8 c.number) h.setup.preference
    ++ u16 h.setup.maxFlow ++ u16 h.setup.minFill ++ u8 h.setup.slowDown ++ u8 h.setup.slowFlow
    ++ u8 h.setup.lead ++ u16 h.setup.startDuty ++ u16 h.setup.readyTimeout ++ u16 h.setup.resumeWindow
    ++ u8 h.setup.noFlowWindows ++ u8 h.setup.noFlowThreshold ++ u8 h.setup.stopSettle
    ++ u8 h.setup.creepLimit ++ u8 h.setup.rewindLimit ++ u8 h.setup.referDeadline
    ++ flagByte h.setup.collectionRequired ++ u8 (compOrNone h.lastSource)

def linPointBytes (p : LinPoint) : List Byte := u16 p.flow ++ u32 p.factor

/-- A window result in the order of the table of 8.3. -/
def windowResultBytes (r : WindowResult) : List Byte :=
  u8 r.meter.number ++ u64 r.start ++ u16 r.length ++ u16 r.n ++ u16 r.q ++ u32 r.lf ++ u64 r.gross
    ++ leSigned 2 r.temperature ++ flagByte r.fallback ++ u32 r.vcf ++ u64 r.net
    ++ u8 (destinationCode r.destination)

/-- A channel context in the order of the table of 8.1. -/
def channelBytes (c : Channel) : List Byte :=
  flagByte c.pinA ++ flagByte c.pinB ++ leSigned 1 c.step ++ u16 c.n ++ optional u32 c.first
    ++ optional u32 c.last ++ u16 c.debt ++ flagByte c.reverseMark ++ u8 c.illegal ++ u16 c.grossResidue
    ++ u32 c.netResidue ++ u16 c.lastFlow ++ firstOf c.probeValid ++ u64 c.unattributed
    ++ u64 c.totaliser ++ u16 c.wraps ++ optional windowResultBytes c.result

/-- A run record in the order of the table of 9.3; `flowing` is its flowing time as it stands. One presence byte stands ahead
of point, old factor and new factor: the model's choice (notes/assumptions/12.md). -/
def runBytes (r : Run) (flowing : Nat) : List Byte :=
  u8 r.compartment.number ++ u8 (gradeCode r.grade) ++ u16 r.setPoint ++ u16 r.nominal ++ u64 r.indicated
    ++ u32 flowing ++ optional (fun e => u8 (flowEndCode e)) r.flowEnd ++ flagByte r.settled
    ++ u8 (runOutcomeCode r.outcome)
    ++ optional (fun p : RunResult => u32 p.observed) r.result
    ++ optional (fun p : RunResult => u64 p.averageFlow) r.result
    ++ optional (fun p : RunResult => u8 p.point ++ u32 p.oldFactor ++ u32 p.newFactor) r.result

/-- A load order in the order of the table of 10.1. -/
def orderBytes (o : LoadOrder) : List Byte :=
  u8 (loadStateCode o.state) ++ u8 o.compartment.number ++ u8 (gradeCode o.grade) ++ u16 o.expected
    ++ o.docket ++ optional u64 o.gaugeBefore ++ u64 o.gross ++ u64 o.net ++ optional u64 o.gaugeAfter
    ++ optional (leSigned 8) o.docketVariance ++ optional (leSigned 8) o.gaugeVariance
    ++ optional (fun c => u8 (endCauseCode c)) o.endCause
    ++ u32 o.created ++ optional u32 o.armed ++ optional u32 o.flowStart ++ optional u32 o.flowEnd
    ++ optional u32 o.completed

/-- A fault record (12.1); the detail value takes 4 bytes. -/
def faultBytes (f : FaultRecord) : List Byte :=
  u8 (severityCode f.severity) ++ u8 (errorCode f.kind) ++ u16 f.index ++ leSigned 4 f.detail ++ u32 f.time

/-- The switch levels in the order of the table of R100, each with its first listed level 0. -/
def levelBytes (s : Switches) : List Byte :=
  s.offHook.toList.flatMap flagByte ++ s.start.toList.flatMap firstOf ++ s.stow.toList.flatMap firstOf
    ++ firstOf s.estop ++ firstOf s.park ++ firstOf s.coupled ++ s.high.toList.flatMap flagByte
    ++ firstOf s.powerFail ++ flagByte s.sealClosed

/-- The switch change flags in the same order. -/
def changeBytes (s : Switches) : List Byte :=
  s.offHook.toList.flatMap flagByte ++ s.start.toList.flatMap flagByte ++ s.stow.toList.flatMap flagByte
    ++ flagByte s.estop ++ flagByte s.park ++ flagByte s.coupled ++ s.high.toList.flatMap flagByte
    ++ flagByte s.powerFail ++ flagByte s.sealClosed

/-- Time left in ms on a timer that expires at instant `t`. -/
def timeLeft (now : Nat) (t : Option Nat) : Nat := t.getD now - now

end Sys2Proof.Machine
end

