-- ==== Sys2Proof/Machine/Operands.lean ====
section
/-! DEFINITION. The operand forms of host commands: the ranges of every field and the physical thing a number
names. A number that names nothing gives `none`, which the command answers MALFORMED. -/

namespace Sys2Proof.Machine

/-- `lo ≤ n ≤ hi`, as the manual's inclusive ranges are (0.4). -/
def inRange (lo hi n : Nat) : Bool := decide (lo ≤ n) && decide (n ≤ hi)

/-- A hose or reader port number 1–3. -/
def hoseOf (n : Nat) : Option HoseId :=
  match n with
  | 1 => some .h1
  | 2 => some .h2
  | 3 => some .h3
  | _ => none

/-- A compartment or meter number 1–4. -/
def fourOf (n : Nat) : Option Four :=
  match n with
  | 1 => some .one
  | 2 => some .two
  | 3 => some .three
  | 4 => some .four
  | _ => none

/-- A price tier 0–3. -/
def tierOf (n : Nat) : Option Tier := fourOf (n + 1)

/-- A bank number 1–13 (12.1). -/
def bankOf (n : Nat) : Option BankId :=
  match n with
  | 1 => some (.reader .h1)
  | 2 => some (.reader .h2)
  | 3 => some (.reader .h3)
  | 4 => some (.hose .h1)
  | 5 => some (.hose .h2)
  | 6 => some (.hose .h3)
  | 7 => some (.meter .one)
  | 8 => some (.meter .two)
  | 9 => some (.meter .three)
  | 10 => some (.meter .four)
  | 11 => some .gauge
  | 12 => some .inlet
  | 13 => some .table
  | _ => none

/-- A tag ID is 1 to 2^48 − 1 (1.1). -/
def tagOk (tag : Nat) : Bool := inRange 1 Config.maxTag tag

def machineSlotOk (n : Nat) : Bool := decide (n < Config.machineSlots)
def accountSlotOk (n : Nat) : Bool := decide (n < Config.accountSlots)
def loadSlotOk (n : Nat) : Bool := decide (n < Config.loadSlots)

/-- {G1}, {G2} or {G1, G2}. -/
def dieselSet (s : GradeSet) : Bool := (s.g1 || s.g2) && !s.g3

/-- {G3}. -/
def fluidSet (s : GradeSet) : Bool := s.g3 && !s.g1 && !s.g2

/-- The four permitted grade sets of a range entry or a reply (1.4, R91). -/
def permittedSet (s : GradeSet) : Bool := dieselSet s || fluidSet s

/-- Membership of a grade set. -/
def inSet (s : GradeSet) : Grade → Bool
  | .g1 => s.g1
  | .g2 => s.g2
  | .g3 => s.g3

def ceilingOk : Option Nat → Bool
  | none => true
  | some c => inRange 10 1000 c

/-- The ranges of a fuel tank sub-record (1.1). -/
def fuelTankOk (t : Tank) : Bool :=
  tagOk t.tag && dieselSet t.grades && inRange 1 20000 t.capacity && ceilingOk t.ceiling

/-- The ranges of a fluid tank sub-record (1.1). -/
def fluidTankOk (t : Tank) : Bool :=
  tagOk t.tag && fluidSet t.grades && inRange 1 2000 t.capacity && ceilingOk t.ceiling

/-- At least one tank, each within its ranges, and different tag IDs where both are present (R1). -/
def tanksOk : Option Tank → Option Tank → Bool
  | none, none => false
  | some t, none => fuelTankOk t
  | none, some u => fluidTankOk u
  | some t, some u => fuelTankOk t && fluidTankOk u && t.tag != u.tag

/-- The field set of MACHINE INSTALL and AMEND is well formed (R1). -/
def machineFieldsOk (f : MachineFields) : Bool :=
  inRange 1 999999 f.number && accountSlotOk f.account && inRange 1 65535 f.allowance && tanksOk f.fuel f.fluid

/-- The ranges of a range entry (R20). -/
def rangeEntryOk (e : RangeEntry) : Bool :=
  decide (e.base ≤ Config.maxTag) && decide (e.mask ≤ Config.maxTag) && accountSlotOk e.account
    && permittedSet e.grades && inRange 1 20000 e.limit

/-- Baud rate, minimum quality and tag-loss grace (R38). -/
def readerFieldsOk (baud minQuality grace : Nat) : Bool :=
  (baud == 9600 || baud == 19200 || baud == 38400) && inRange 0 100 minQuality && inRange 500 10000 grace

/-- Account number and credit limit within the ranges of 3.1; the tier is judged by `tierOf`. -/
def accountFieldsOk (number limit : Nat) : Bool :=
  inRange 1 65535 number && decide (limit < 1000000000000)

/-- Current period figures within the ranges of 3.1. -/
def periodFiguresOk (p : PeriodFigures) : Bool :=
  p.net.toList.all (fun n => decide (n ≤ Config.moneyMax)) && decide (p.charges ≤ Config.moneyMax)
    && decide (p.fills ≤ Config.countMax)

/-- 2–16 strapping points, levels and volumes in range and each strictly increasing (R70). -/
def strictlyRising (f : StrapPoint → Nat) : List StrapPoint → Bool
  | [] => true
  | [_] => true
  | p :: q :: rest => decide (f p < f q) && strictlyRising f (q :: rest)

def strapOk (ps : List StrapPoint) : Bool :=
  inRange 2 16 ps.length && ps.all (fun p => decide (p.level ≤ 32000) && decide (p.volume ≤ 20000))
    && strictlyRising StrapPoint.level ps && strictlyRising StrapPoint.volume ps

/-- Flows strictly increasing (9.1). -/
def flowsRising : List LinPoint → Bool
  | [] => true
  | [_] => true
  | p :: q :: rest => decide (p.flow < q.flow) && flowsRising (q :: rest)

/-- 1–8 linearisation points in range with flows strictly increasing (9.1, R155). -/
def linPointsOk (ps : List LinPoint) : Bool :=
  inRange 1 8 ps.length
    && ps.all (fun p => decide (p.flow ≤ 65535) && inRange 58982 72090 p.factor) && flowsRising ps

/-- No compartment twice. -/
def distinctComps : List CompId → Bool
  | [] => true
  | c :: rest => !rest.contains c && distinctComps rest

/-- The compartments a preference list names: 1–4 distinct compartments 1–4 (6.1). -/
def preferenceOf (ns : List Nat) : Option (List CompId) :=
  match ns.mapM fourOf with
  | none => none
  | some cs => if inRange 1 4 cs.length && distinctComps cs then some cs else none

/-- The setup record HOSE SETUP writes: clamps of maximum flow and slow flow first, then every field within
its range, `none` for MALFORMED (R96, R97). -/
def setupOf (id : HoseId) (f : HoseSetupFields) : Option HoseSetup :=
  match preferenceOf f.preference with
  | none => none
  | some cs =>
    let maxFlow := min f.maxFlow (HoseId.flowCeiling id)
    let slowFlow := min f.slowFlow maxFlow
    if decide (10 ≤ maxFlow) && inRange 1 500 f.minFill && decide (f.slowDown ≤ 100) && inRange 5 200 slowFlow
        && decide (f.lead ≤ 200) && decide (f.startDuty ≤ 1000) && inRange 10 600 f.readyTimeout
        && inRange 5 300 f.resumeWindow && inRange 2 255 f.noFlowWindows && decide (f.noFlowThreshold ≤ 50)
        && inRange 1 30 f.stopSettle && inRange 1 50 f.creepLimit && inRange 5 120 f.rewindLimit
        && inRange 5 120 f.referDeadline then
      some
        { preference := cs
          maxFlow := maxFlow
          minFill := f.minFill
          slowDown := f.slowDown
          slowFlow := slowFlow
          lead := f.lead
          startDuty := f.startDuty
          readyTimeout := f.readyTimeout
          resumeWindow := f.resumeWindow
          noFlowWindows := f.noFlowWindows
          noFlowThreshold := f.noFlowThreshold
          stopSettle := f.stopSettle
          creepLimit := f.creepLimit
          rewindLimit := f.rewindLimit
          referDeadline := f.referDeadline
          collectionRequired := f.collectionRequired }
    else none

/-- A docket reference: 16 characters, each 0x20–0x7E (R168). -/
def docketOk (d : List Byte) : Bool := d.length == 16 && d.all (fun b => inRange 0x20 0x7E b.toNat)

/-- Inlet setup ranges (R167). -/
def inletSetupOk (idle arm settle ullage : Nat) : Bool :=
  inRange 5 300 idle && inRange 1 60 arm && inRange 30 900 settle && inRange 90 99 ullage

end Sys2Proof.Machine
end

