-- ==== Sys2Proof/Machine/Flags.lean ====
section
/-! DEFINITION. Every flag the controller raises: fault banks (12.1), the notice set and ATTN (12.2), the
FIELD STATUS change flags (R101) and DRIVE PERMIT (R110). -/

namespace Sys2Proof.Machine

/-! ### Fault banks -/

/-- The error kinds of a bank, in the order that numbers the bits of its enable set (12.1, R194). -/
def bankKinds : BankId → List ErrorKind
  | .reader _ => [.lineError, .readerSilent]
  | .hose _ => [.leak, .valve, .overspeed, .noFlow, .reel]
  | .meter _ => [.pulser, .reverse, .tempProbe]
  | .gauge => [.probe, .unsettled]
  | .inlet => [.highLevel, .inletValve]
  | .table => [.recordCheck]

/-- The severity of each error kind (12.1). -/
def severityOf : ErrorKind → Severity
  | .lineError => .recovered
  | .readerSilent => .recovered
  | .leak => .stop
  | .valve => .stop
  | .overspeed => .stop
  | .noFlow => .recovered
  | .reel => .recovered
  | .pulser => .stop
  | .reverse => .stop
  | .tempProbe => .advisory
  | .probe => .advisory
  | .unsettled => .advisory
  | .highLevel => .recovered
  | .inletValve => .stop
  | .recordCheck => .recovered

def bankGet (b : Banks) : BankId → Bank
  | .reader h => b.reader.get h
  | .hose h => b.hose.get h
  | .meter m => b.meter.get m
  | .gauge => b.gauge
  | .inlet => b.inlet
  | .table => b.table

def bankSet (b : Banks) (i : BankId) (k : Bank) : Banks :=
  match i with
  | .reader h => { b with reader := b.reader.set h k }
  | .hose h => { b with hose := b.hose.set h k }
  | .meter m => { b with meter := b.meter.set m k }
  | .gauge => { b with gauge := k }
  | .inlet => { b with inlet := k }
  | .table => { b with table := k }

def setBank (i : BankId) (k : Bank) (s : State) : State := { s with banks := bankSet s.banks i k }

/-- The enable entry of a kind in its bank. -/
def kindEnabled (i : BankId) (k : Bank) (kind : ErrorKind) : Bool :=
  match (bankKinds i).idxOf? kind with
  | none => false
  | some j => k.enable.getLsbD j

/-- A STOP-severity fault is valid in the bank. -/
def stopValid (i : BankId) (s : State) : Bool :=
  match (bankGet s.banks i).record with
  | none => false
  | some f => f.severity == .stop

/-- A STOP-severity fault is valid in the hose's HOSE bank or its meter's METER bank (R80, R130). -/
def hoseStopValid (h : HoseId) (s : State) : Bool :=
  stopValid (.hose h) s || stopValid (.meter h.meter) s

/-! ### Notice set -/

/-- Priority of a notice kind, which is also its code (12.2, R195). -/
def noticeKind : Notice → Nat
  | .fault _ => 1
  | .refer _ => 2
  | .sessionEnd _ => 3
  | .load _ => 4
  | .doneHose _ => 5
  | .doneComp _ => 5
  | .restock _ => 6
  | .day => 7
  | .restarted => 8

/-- Source of a notice; absent for DAY and RESTARTED (R189). -/
def noticeSource : Notice → Option Nat
  | .fault b => some (bankNumber b)
  | .refer h => some h.number
  | .sessionEnd h => some h.number
  | .load slot => some slot
  | .doneHose h => some h.number
  | .doneComp c => some c.number
  | .restock c => some c.number
  | .day => none
  | .restarted => none

/-- Place in the order in which NOTICE NEXT takes members: kind, within DONE hoses before compartments, then
source (R189). -/
def noticeRank : Notice → Nat
  | .fault b => 16 + bankNumber b
  | .refer h => 32 + h.number
  | .sessionEnd h => 48 + h.number
  | .load slot => 64 + slot % 8
  | .doneHose h => 80 + h.number
  | .doneComp c => 84 + c.number
  | .restock c => 96 + c.number
  | .day => 112
  | .restarted => 128

/-- Adds a member to the set, kept in the order NOTICE NEXT takes; a pending member is not added again. -/
def insertNotice (n : Notice) : List Notice → List Notice
  | [] => [n]
  | m :: rest =>
    if n = m then m :: rest
    else if noticeRank n < noticeRank m then n :: m :: rest
    else m :: insertNotice n rest

/-- The kind of a notice is enabled in a mask (bit 0 is FAULT, R194). -/
def maskEnables (mask : BitVec 8) (n : Notice) : Bool := mask.getLsbD (noticeKind n - 1)

/-- A notice is raised when its kind is enabled in the mask, and not raised when it is masked (R188). -/
def raise (n : Notice) (s : State) : State :=
  if maskEnables s.noticeMask n then { s with notices := insertNotice n s.notices } else s

/-- A pending member leaves the set (R188). -/
def dropNotice (n : Notice) (s : State) : State :=
  { s with notices := s.notices.filter (fun m => m != n) }

/-- ATTN is asserted while the set holds at least one member (R188). -/
def attn (s : State) : Bool := !s.notices.isEmpty

/-! ### Reporting -/

/-- The detail value as the record holds it: a larger value is reported as 2^31 − 1 (12.1). -/
def clipDetail (d : Int) : Int := min d 2147483647

/-- The report of a fault to a bank (R185): recorded when the bank is empty, replaced with overflow when its
severity is higher than the held one's, overflow alone otherwise; nothing when the kind is disabled. -/
def report (i : BankId) (kind : ErrorKind) (index : Nat) (detail : Int) (s : State) : State :=
  let k := bankGet s.banks i
  let f : FaultRecord :=
    { severity := severityOf kind, kind := kind, index := index, detail := clipDetail detail
      time := s.timebase.count }
  if kindEnabled i k kind then
    match k.record with
    | none => raise (.fault i) (setBank i { k with record := some f } s)
    | some old =>
      if severityCode old.severity < severityCode f.severity then
        raise (.fault i) (setBank i { k with overflow := true, record := some f } s)
      else setBank i { k with overflow := true } s
  else s

/-! ### Hose states -/

/-- The open-session states (R113). -/
def openState : HoseState → Bool
  | .ready => true
  | .flowing => true
  | .slowing => true
  | .paused => true
  | .stopping => true
  | _ => false

/-- The proving states. -/
def provingState : HoseState → Bool
  | .proveReady => true
  | .proveFlowing => true
  | .proveHeld => true
  | _ => false

/-! ### DRIVE PERMIT -/

/-- A load order is LOADING or SETTLING. -/
def inletBusy (s : State) : Bool :=
  s.loads.orders.any (fun p => p.2.state == .loading || p.2.state == .settling)

/-- All stow switches closed, no open session, no reel motor running, inlet uncoupled, no order LOADING or
SETTLING (R110). -/
def permitConditions (s : State) : Bool :=
  s.field.levels.stow.h1 && s.field.levels.stow.h2 && s.field.levels.stow.h3
    && s.hoses.toList.all (fun h => !openState h.state)
    && s.hoses.toList.all (fun h => !h.outputs.reel)
    && !s.field.levels.coupled
    && !inletBusy s

/-- DRIVE PERMIT takes its new level as part of the event that changes a condition (R110). -/
def evaluatePermit (s : State) : State := { s with drivePermit := permitConditions s }

/-! ### Change flags (R101) -/

def setLevels (v : Switches) (s : State) : State := { s with field := { s.field with levels := v } }
def setChanged (v : Switches) (s : State) : State := { s with field := { s.field with changed := v } }

/-- −500 to +1000 is a valid line temperature reading (R101, R143). -/
def tempValid (t : Int) : Bool := decide (-500 ≤ t) && decide (t ≤ 1000)

/-- The latest reading of a hose's line temperature probe; its flag is set when its validity changes. -/
def takeLineTemp (h : HoseId) (t : Int) (s : State) : State :=
  let old := s.field.lineTemp.get h.meter
  let field := { s.field with lineTemp := s.field.lineTemp.set h.meter t }
  if tempValid old == tempValid t then { s with field := field }
  else { s with field := { field with tempChanged := field.tempChanged.set h true } }

/-- Every change flag clear. -/
def clearChanges (s : State) : State :=
  { s with
    field :=
      { s.field with
        changed := Switches.none
        pulserAChanged := ByFour.all false
        pulserBChanged := ByFour.all false
        tempChanged := ByHose.all false } }

end Sys2Proof.Machine
end

