-- ==== Sys2Proof/Machine/Ops.lean ====
section
/-! DEFINITION. The shared operations: numbered slots, the writes of machine, account and compartment records
with what each write carries with it, verification and quarantine, tag resolution, gauges, hose outputs and
state changes, the end of a session, of a request, of a run and of a load, and the effect of a STOP fault. -/

namespace Sys2Proof.Machine

/-! ### Arithmetic of figures -/

/-- Saturating addition (0.4). -/
def satAdd (limit a b : Nat) : Nat := min (a + b) limit

/-- A figure less a part of it. The spec's laws keep the part within the figure; where a damaged record
breaks them the result is free. -/
def minus (a b : Nat) : Nat := if b ≤ a then a - b else Config.belowZero a b

/-- The nearest integer to `num / den`, one half going up (0.4). -/
def roundHalfUp (num den : Nat) : Nat := (2 * num + den) / (2 * den)

/-- `num / den` for a positive `den`, one half going away from zero (0.4). -/
def roundHalfAway (num : Int) (den : Nat) : Int :=
  if 0 ≤ num then (roundHalfUp num.toNat den : Int) else -(roundHalfUp (-num).toNat den : Int)

/-- Temperatures are clamped to −400 to +850 before use (R72, R143). -/
def clampTemp (t : Int) : Int := max (-400) (min t 850)

/-- Volume correction factor in ppm (R73, R144). -/
def vcf (alpha : Nat) (t : Int) : Nat := (1000000 - roundHalfAway (alpha * (t - 150)) 10).toNat

/-! ### Numbered slots -/

def tableGet {α : Type} : Table α → Nat → Option α
  | [], _ => none
  | (j, x) :: rest, i => if i = j then some x else tableGet rest i

def tableSet {α : Type} : Table α → Nat → α → Table α
  | [], i, a => [(i, a)]
  | (j, x) :: rest, i, a =>
    if i < j then (i, a) :: (j, x) :: rest
    else if i = j then (i, a) :: rest
    else (j, x) :: tableSet rest i a

def tableErase {α : Type} : Table α → Nat → Table α
  | [], _ => []
  | (j, x) :: rest, i => if i = j then tableErase rest i else (j, x) :: tableErase rest i

/-- The lowest-numbered slot from `k` on, among the next `fuel`, that is FREE. -/
def freeFrom {α : Type} (t : Table α) (k : Nat) : Nat → Option Nat
  | 0 => none
  | fuel + 1 => if (tableGet t k).isNone then some k else freeFrom t (k + 1) fuel

/-- The lowest-numbered FREE slot of a table of `size` slots. -/
def lowestFree {α : Type} (t : Table α) (size : Nat) : Option Nat := freeFrom t 0 size

/-- Canonical form: slot numbers strictly rising. -/
def tableRising {α : Type} : Table α → Bool
  | [] => true
  | [_] => true
  | (i, _) :: (j, y) :: rest => decide (i < j) && tableRising ((j, y) :: rest)

/-- The first listed entry that meets a test. -/
def tableFind {α : Type} (p : Nat → α → Bool) : Table α → Option (Nat × α)
  | [] => none
  | (i, x) :: rest => if p i x then some (i, x) else tableFind p rest

/-! ### Placing a record -/

def setHose (h : HoseId) (x : Hose) (s : State) : State := { s with hoses := s.hoses.set h x }
def setReader (h : HoseId) (x : Reader) (s : State) : State := { s with readers := s.readers.set h x }
def setComp (c : CompId) (x : Compartment) (s : State) : State :=
  { s with compartments := s.compartments.set c x }
def setChannel (m : MeterId) (x : Channel) (s : State) : State := { s with channels := s.channels.set m x }
def setStore (x : MetrologyStore) (s : State) : State := { s with store := x }
def setLoads (x : LoadController) (s : State) : State := { s with loads := x }
def setTimebase (x : Timebase) (s : State) : State := { s with timebase := x }
def setPort (x : Port) (s : State) : State := { s with port := x }

/-- Stores a machine record as given. -/
def putMachine (slot : Nat) (m : MachineRecord) (s : State) : State :=
  { s with machines := tableSet s.machines slot m }

/-- Writes a machine record with a fresh check word (R22). -/
def writeMachine (slot : Nat) (m : MachineRecord) (s : State) : State := putMachine slot (machineStamp m) s

/-- Stores an account record as given. -/
def putAccount (slot : Nat) (a : AccountRecord) (s : State) : State :=
  { s with accounts := tableSet s.accounts slot a }

/-- Writes an account record with a fresh check word (R57). -/
def writeAccount (slot : Nat) (a : AccountRecord) (s : State) : State := putAccount slot (accountStamp a) s

/-- Changes an account by `f` and writes it; a FREE slot is left as it is. -/
def changeAccount (slot : Nat) (f : AccountRecord → AccountRecord) (s : State) : State :=
  match tableGet s.accounts slot with
  | none => s
  | some a => writeAccount slot (f a) s

def setOrder (slot : Nat) (o : LoadOrder) (s : State) : State :=
  setLoads { s.loads with orders := tableSet s.loads.orders slot o } s

/-- The present instant, on the 1 ms tick. -/
def instant (s : State) : Nat := s.timebase.now

/-- The site clock reading, taken whether the clock is SET or NOT_SET (R180). -/
def siteTime (s : State) : Nat := s.timebase.count

/-- `k` ticks of 1 ms: the instant, and the 1,000 µs that the capture counter counts in each (R179). -/
def passTicks (k : Nat) (t : Timebase) : Timebase :=
  { t with now := t.now + k, capture := (t.capture + 1000 * k) % Config.clockModulus }

/-- The instant moves on to `t`, never back: an expiry taken shows that its instant has come, and the capture counter has
counted on with it. -/
def reachInstant (t : Nat) (s : State) : State :=
  setTimebase (passTicks (t - s.timebase.now) s.timebase) s

/-! ### References and tag index (R6, R8) -/

def addReference (slot : Nat) (s : State) : State :=
  changeAccount slot (fun a => { a with references := a.references + 1 }) s

def dropReference (slot : Nat) (s : State) : State :=
  changeAccount slot (fun a => { a with references := minus a.references 1 }) s

/-- The reference of a record moves from one account to another; unchanged when both are the same. -/
def moveReference (old new : Option Nat) (s : State) : State :=
  if old = new then s
  else
    let s := match old with
      | none => s
      | some a => dropReference a s
    match new with
    | none => s
    | some a => addReference a s

/-- Removes the index entry of a stored tank of a slot. -/
def unindexTank (slot : Nat) (t : Option Tank) (s : State) : State :=
  match t with
  | none => s
  | some k =>
    match tableGet s.tagIndex k.tag with
    | none => s
    | some e => if e.slot = slot then { s with tagIndex := tableErase s.tagIndex k.tag } else s

/-- Adds the index entry of a tank of a slot. -/
def indexTank (slot : Nat) (kind : TankKind) (t : Option Tank) (s : State) : State :=
  match t with
  | none => s
  | some k => { s with tagIndex := tableSet s.tagIndex k.tag { slot := slot, tank := kind } }

/-- The index follows a change of a slot's tanks (R6). -/
def reindex (slot : Nat) (oldFuel oldFluid newFuel newFluid : Option Tank) (s : State) : State :=
  indexTank slot .fluid newFluid (indexTank slot .fuel newFuel
    (unindexTank slot oldFluid (unindexTank slot oldFuel s)))

/-- The tag is in the index (R6). -/
def tagHeld (tag : Nat) (s : State) : Bool := (tableGet s.tagIndex tag).isSome

/-- The tag is in the index under a machine other than this one. -/
def tagHeldElsewhere (slot : Nat) (t : Option Tank) (s : State) : Bool :=
  match t with
  | none => false
  | some k =>
    match tableGet s.tagIndex k.tag with
    | none => false
    | some e => e.slot != slot

/-- A machine record becomes FREE: its fields go, its index entries go, its account loses the reference (R19). The index
entries are those of the tags stored in the record, as R14 says of a rewrite; where damage has changed a stored tag, the
entry of the earlier one stays: the model's choice (notes/assumptions/41.md). -/
def freeMachine (slot : Nat) (m : MachineRecord) (s : State) : State :=
  dropReference m.account
    (unindexTank slot m.fluid (unindexTank slot m.fuel
      { s with machines := tableErase s.machines slot }))

/-! ### Verification (R23, R58) -/

/-- Looks a machine record up with verification: whether its check word agrees, and the state with the
quarantine and RECORD_CHECK a mismatch causes. A RETIRING record keeps its state. -/
def verifyMachine (slot : Nat) (m : MachineRecord) (s : State) : Bool × State :=
  if m.checkWord = machineCheck m then (true, s)
  else
    match m.state with
    | .quarantined => (false, s)
    | .retiring => (false, report .table .recordCheck slot 0 s)
    | .active => (false, report .table .recordCheck slot 0 (putMachine slot { m with state := .quarantined } s))
    | .suspended =>
      (false, report .table .recordCheck slot 0 (putMachine slot { m with state := .quarantined } s))

/-- Looks an account record up with verification (R58). -/
def verifyAccount (slot : Nat) (a : AccountRecord) (s : State) : Bool × State :=
  if a.checkWord = accountCheck a then (true, s)
  else
    match a.state with
    | .quarantined => (false, s)
    | .opened => (false, report .table .recordCheck slot 1 (putAccount slot { a with state := .quarantined } s))
    | .stopped => (false, report .table .recordCheck slot 1 (putAccount slot { a with state := .quarantined } s))

/-- The record of a slot as it stands. -/
def machineAt (slot : Nat) (s : State) : Option MachineRecord := tableGet s.machines slot
def accountAt (slot : Nat) (s : State) : Option AccountRecord := tableGet s.accounts slot

/-- A non-FREE record other than `slot` holds the machine number. -/
def numberHeldElsewhere (slot : Option Nat) (number : Nat) (s : State) : Bool :=
  (tableFind (fun i m => m.number == number && some i != slot) s.machines).isSome

/-- A non-FREE record other than `slot` holds the account number. -/
def accountNumberHeldElsewhere (slot : Option Nat) (number : Nat) (s : State) : Bool :=
  (tableFind (fun i a => a.number == number && some i != slot) s.accounts).isSome

/-! ### Tag resolution (R7, R9) -/

inductive Resolution where
  | machine (target : TagTarget)
  | range (entry : Nat) (e : RangeEntry)
  | default (policy : Policy)
deriving DecidableEq, Repr

/-- (tag AND mask) = (base AND mask), for an enabled entry (R7). -/
def rangeMatches (e : RangeEntry) (tag : Nat) : Bool := e.enabled && tag &&& e.mask == e.base &&& e.mask

/-- The lowest-numbered matching entry of a policy. -/
def rangeHit (tag : Nat) (p : Policy) (s : State) : Option (RangeEntry × Nat) :=
  s.ranges.toList.zipIdx.find? (fun x => rangeMatches x.1 tag && x.1.policy == p)

/-- Tag index first, then the most restrictive matching range policy, then the default policy (R9). -/
def resolve (tag : Nat) (s : State) : Resolution :=
  match tableGet s.tagIndex tag with
  | some t => .machine t
  | none =>
    match rangeHit tag .refuse s with
    | some (e, i) => .range i e
    | none =>
      match rangeHit tag .refer s with
      | some (e, i) => .range i e
      | none =>
        match rangeHit tag .allow s with
        | some (e, i) => .range i e
        | none => .default s.defaultPolicy

/-! ### Compartments (R62 to R64, R77) -/

/-- Available stock: book less committed (4.3). -/
def available (k : Compartment) : Int := k.book - k.committed

/-- The restock comparison (R64). -/
def compareRestock (c : CompId) (s : State) : State :=
  let k := s.compartments.get c
  let low := decide (available k < (k.threshold * Config.litre : Nat))
  if low && !k.restockNeeded then raise (.restock c) (setComp c { k with restockNeeded := true } s)
  else if !low && k.restockNeeded then setComp c { k with restockNeeded := false } s
  else s

/-- A window's net volume leaves the compartment: book falls, dispensed total rises, and `released` of the
commitment is given back (R62, R63). -/
def debit (c : CompId) (net released : Nat) (s : State) : State :=
  let k := s.compartments.get c
  compareRestock c
    (setComp c
      { k with
        book := k.book - net
        dispensed := k.dispensed + net
        committed := minus k.committed released } s)

/-- A loading window's net volume enters the compartment (R62, R147). -/
def credit (c : CompId) (net : Nat) (s : State) : State :=
  let k := s.compartments.get c
  compareRestock c (setComp c { k with book := k.book + net, loaded := k.loaded + net } s)

/-- What is left of a session's contribution to committed stock: max(0, hold × 10^6 − net) (R63). -/
def contribution (x : Session) : Nat := x.hold * Config.litre - x.net

/-- The hose draws from the compartment (4.4). -/
def hoseDraws (c : CompId) (h : Hose) : Bool :=
  (openState h.state && match h.session with
    | some x => x.compartment == c
    | none => false)
  || (provingState h.state && match h.run with
    | some r => r.compartment == c
    | none => false)

/-- Some hose draws from the compartment. -/
def drawnFrom (c : CompId) (s : State) : Bool := s.hoses.toList.any (hoseDraws c)

/-- A gauge in flight is aborted: it clears, the outcome becomes ABORTED, the last gauge stays (R77). -/
def abortGauge (c : CompId) (s : State) : State :=
  let k := s.compartments.get c
  match k.gauge with
  | none => s
  | some _ => setComp c { k with gauge := none, outcome := .aborted } s

/-- A host gauge in flight is aborted and DONE is raised for the compartment (R77). -/
def abortHostGauge (c : CompId) (s : State) : State :=
  match (s.compartments.get c).gauge with
  | some g => if g.origin = .host then raise (.doneComp c) (abortGauge c s) else s
  | none => s

/-! ### Meter channels (R149) -/

/-- Opening a channel: residues and debt 0, mark and illegal count cleared; the inlet's channel also loses
its unattributed volume. -/
def openChannel (m : MeterId) (s : State) : State :=
  let c := s.channels.get m
  setChannel m
    { c with
      grossResidue := 0
      netResidue := 0
      debt := 0
      reverseMark := false
      illegal := 0
      unattributed := if m = .four then 0 else c.unattributed } s

/-! ### Hose outputs and states (R102) -/

/-- Pump stopped, manifold closed, main valve closed, staged duty 0. The reel follows the rewind alone, and
the active duty follows the PWM period (R104). -/
def restOutputs (o : Outputs) : Outputs :=
  { o with pump := false, manifold := none, mainValve := false, staged := 0 }

/-- Pump running, manifold open, main valve closed, duty 0: READY, PAUSED, STOPPING, PROVE_READY,
PROVE_HELD. -/
def closeValve (o : Outputs) : Outputs := { o with mainValve := false, staged := 0 }

/-- The main valve opens at the start duty, at least 100 (R102). -/
def openValve (startDuty : Nat) (o : Outputs) : Outputs := { o with mainValve := true, staged := max startDuty 100 }

/-- The session timers stop. -/
def stopSessionTimers (h : Hose) : Hose :=
  { h with readyTimer := none, resumeTimer := none, settleTimer := none }

/-- The result of a proving run at the hose has been judged and its store write is in progress (R163). -/
def judged (h : HoseId) (s : State) : Bool :=
  match s.store.write with
  | none => false
  | some w =>
    match w.change with
    | .factor g _ => g == h
    | _ => false

/-! ### The end of a session (R128 to R130) -/

/-- The close's updates of the machine record (R2, R3, R4). Day used and day overrun are added to without a bound, 1.1
calling neither saturating: the model's choice beyond 2^48 − 1 (notes/assumptions/40.md). -/
def closeMachineRecord (id : HoseId) (time : Nat) (kind : TankKind) (x : Session) (cause : StopCause)
    (m : MachineRecord) : MachineRecord :=
  let m := { m with
    fillCount := satAdd Config.countMax m.fillCount 1
    lastFill := some
      { time := time, hose := id, grade := x.grade, session := x.number, net := x.net, cause := cause } }
  match kind with
  | .fuel =>
    { m with used := m.used + x.net, overrun := m.overrun + x.overrun, held := 0, fuelLink := none }
  | .fluid => { m with fluidLink := none }

/-- The machine record takes its part of a close; a RETIRING record left with no link becomes FREE (R19). -/
def closeMachine (id : HoseId) (x : Session) (cause : StopCause) (s : State) : State :=
  match x.machine with
  | none => s
  | some (slot, kind) =>
    match machineAt slot s with
    | none => s
    | some m =>
      let m' := closeMachineRecord id (siteTime s) kind x cause m
      if m.state = .retiring ∧ m'.fuelLink = none ∧ m'.fluidLink = none then freeMachine slot m' s
      else writeMachine slot m' s

/-- The account takes its part of a close (R44, R46). -/
def closeAccountRecord (x : Session) (charge : Nat) (a : AccountRecord) : AccountRecord :=
  { a with
    balance := satAdd Config.moneyMax a.balance charge
    held := minus a.held x.moneyHold
    openSessions := minus a.openSessions 1
    current :=
      { net := a.current.net.set x.grade (satAdd Config.moneyMax (a.current.net.get x.grade) x.net)
        charges := satAdd Config.moneyMax a.current.charges charge
        fills := satAdd Config.countMax a.current.fills 1 } }

/-- The compartment takes its part of a close (R63). -/
def closeCompartment (x : Session) (s : State) : State :=
  let k := s.compartments.get x.compartment
  compareRestock x.compartment
    (setComp x.compartment { k with committed := minus k.committed (contribution x) } s)

/-- Charge: net × price / 10^6, rounded half up (R128). -/
def chargeOf (x : Session) : Nat := roundHalfUp (x.net * x.price) Config.litre

/-- The state a hose takes at a close (R130). -/
def stateAfterClose (id : HoseId) (due : Bool) (s : State) : HoseState :=
  if hoseStopValid id s || (s.hoses.get id).stopFaultFound then .locked
  else if due then .complete
  else .idle

/-- A session closes: the record is completed, machine, account and compartment take their parts, the outputs
go to rest, the hose takes its state, SESSION_END is raised. `cause` is written where the session closes
without STOPPING, or where it replaces the cause of STOPPING (R125, R134). -/
def closeSession (id : HoseId) (cause : Option StopCause) (s : State) : State :=
  let h := s.hoses.get id
  match h.session with
  | none => s
  | some x =>
    let stop := cause.getD (x.stopCause.getD .fault)
    let charge := chargeOf x
    let due := h.setup.collectionRequired
    let x' := { x with
      stopCause := some stop
      ended := some (siteTime s)
      charge := some charge
      due := due }
    let s := closeCompartment x (changeAccount x.account (closeAccountRecord x charge) (closeMachine id x stop s))
    raise (.sessionEnd id)
      (setHose id
        { stopSessionTimers h with
          session := some x'
          outputs := restOutputs h.outputs
          state := stateAfterClose id due s
          stopFaultFound := false
          windowAfterClosing := false } s)

/-- Entry to STOPPING (R126): main valve closed, duty 0, closing instant, settle timer. `atWindow` says the
entry is at a window result, whose end is then the closing instant. At any other event the window in progress counts as begun
before the closing instant, even where both are the same ms; R126 says so of a host stop and a pause-expiry, and for the rest
it is the model's choice (notes/assumptions/45.md). -/
def enterStopping (id : HoseId) (cause : StopCause) (atWindow : Bool) (s : State) : State :=
  let h := s.hoses.get id
  setHose id
    { stopSessionTimers h with
      state := .stopping
      outputs := closeValve h.outputs
      session := h.session.map (fun x => { x with stopCause := some cause })
      settleTimer := some (instant s + h.setup.stopSettle * 1000)
      closingInstant := instant s
      windowAfterClosing := atWindow } s

/-- A stop acts on an open session (R113): READY closes at once, a delivering or paused session enters
STOPPING, STOPPING keeps its cause. -/
def stopSession (id : HoseId) (cause : StopCause) (s : State) : State :=
  match (s.hoses.get id).state with
  | .ready => closeSession id (some cause) s
  | .flowing => enterStopping id cause false s
  | .slowing => enterStopping id cause false s
  | .paused => enterStopping id cause false s
  | _ => s

/-! ### Refusals (R81, R93) -/

/-- The last refusal is written afresh. -/
def writeRefusal (id : HoseId) (tag : Option Nat) (reason : Reason) (s : State) : State :=
  setHose id { s.hoses.get id with lastRefusal := some { time := siteTime s, tag := tag, reason := reason } } s

/-- A request stops waiting: the hose returns to IDLE, the deadline timer stops, a pending REFER notice of
the hose is removed (R90). -/
def endWaiting (id : HoseId) (s : State) : State :=
  dropNotice (.refer id)
    (setHose id { s.hoses.get id with state := .idle, waiting := none, referTimer := none } s)

/-- A REFERRED request ends refused (R81, R93). -/
def endReferred (id : HoseId) (reason : Reason) (s : State) : State :=
  let tag := (s.hoses.get id).waiting.map (fun w => w.tag)
  writeRefusal id tag reason (endWaiting id s)

/-! ### The end of a proving run (R162, R163) -/

/-- Flowing time as it stands: it runs while the main valve of the run is open (R160). It stops at 2^32 − 1 ms, the end of
its range, which 9.3 does not call saturating: the model's choice (notes/assumptions/49.md). -/
def flowingTimeNow (now : Nat) (r : Run) : Nat :=
  match r.flowOpened with
  | none => r.flowingTime
  | some t => min (now - t) 4294967295

/-- Flowing time stops. -/
def stopFlowing (now : Nat) (r : Run) : Run := { r with flowingTime := flowingTimeNow now r, flowOpened := none }

/-- A run ends: outcome written, outputs at rest, timers stopped, DONE raised, the hose in its next state. -/
def endRun (id : HoseId) (outcome : RunOutcome) (next : HoseState) (s : State) : State :=
  let h := s.hoses.get id
  raise (.doneHose id)
    (setHose id
      { stopSessionTimers h with
        run := h.run.map (fun r => { stopFlowing (instant s) r with outcome := outcome })
        outputs := restOutputs h.outputs
        state := next
        stopFaultFound := false
        windowAfterClosing := false } s)

/-! ### STOP faults (R107, R122, R162, R165) -/

/-- The hose is locked, or will be at its return to service or at its close. `cause` is the stop cause a
delivering session takes. -/
def stopFault (id : HoseId) (cause : StopCause) (s : State) : State :=
  let h := s.hoses.get id
  match h.state with
  | .ready => closeSession id (some .fault) (setHose id { h with stopFaultFound := true } s)
  | .flowing => enterStopping id cause false (setHose id { h with stopFaultFound := true } s)
  | .slowing => enterStopping id cause false (setHose id { h with stopFaultFound := true } s)
  | .paused => enterStopping id cause false (setHose id { h with stopFaultFound := true } s)
  | .stopping => setHose id { h with stopFaultFound := true } s
  | .idle => setHose id { h with state := .locked } s
  | .complete => setHose id { h with state := .locked } s
  | .locked => s
  | .outOfService => setHose id { h with returnState := some .locked } s
  | .referred =>
    let s := endReferred id .hoseUnavailable s
    setHose id { s.hoses.get id with state := .locked } s
  | .proveReady => endRun id .fault .locked s
  | .proveFlowing => endRun id .fault .locked s
  | .proveHeld =>
    if judged id s then setHose id { h with stopFaultFound := true } s else endRun id .fault .locked s

/-! ### Rewinds (R109) -/

/-- A running rewind ends: motor stopped, timer stopped, outcome written. -/
def stopRewind (id : HoseId) (outcome : RewindOutcome) (s : State) : State :=
  let h := s.hoses.get id
  if h.outputs.reel then
    setHose id
      { h with
        outputs := { h.outputs with reel := false }
        rewindTimer := none
        rewindOutcome := outcome } s
  else s

/-- The same at an event of R109, which raises DONE for the hose. -/
def endRewind (id : HoseId) (outcome : RewindOutcome) (s : State) : State :=
  if (s.hoses.get id).outputs.reel then raise (.doneHose id) (stopRewind id outcome s) else s

/-! ### Loads (R166 to R175) -/

/-- Orders that are under way. -/
def activeState : LoadState → Bool
  | .armed => true
  | .loading => true
  | .settling => true
  | _ => false

/-- The active order, of which there is at most one (R166). -/
def activeOrder (s : State) : Option (Nat × LoadOrder) :=
  tableFind (fun _ o => activeState o.state) s.loads.orders

/-- The LOADING order. -/
def loadingOrder (s : State) : Option (Nat × LoadOrder) :=
  tableFind (fun _ o => o.state == .loading) s.loads.orders

/-- The compartment of an order returns to IN_SERVICE (R65). -/
def releaseCompartment (c : CompId) (s : State) : State :=
  setComp c { s.compartments.get c with state := .inService } s

/-- The inlet closes and the order becomes SETTLING (R173). -/
def closeInlet (slot : Nat) (o : LoadOrder) (cause : EndCause) (s : State) : State :=
  setLoads
    { s.loads with
      orders := tableSet s.loads.orders slot
        { o with state := .settling, endCause := some cause, flowEnd := some (siteTime s) }
      valveOpen := false
      armTimer := none
      idleTimer := none
      settleTimer := some (instant s + s.loads.setup.settle * 1000)
      watch := some (instant s) } s

/-- An end event closes the inlet of a LOADING order and does nothing otherwise (R173). -/
def endLoading (cause : EndCause) (s : State) : State :=
  match loadingOrder s with
  | none => s
  | some (slot, o) => closeInlet slot o cause s

def setInletLock (s : State) : State := setLoads { s.loads with lock := true } s

/-- A STOP-severity fault found on a meter: it acts on the meter's hose, or sets the inlet lock and closes a
LOADING inlet (R122, R173, R175). -/
def meterStop (m : MeterId) (s : State) : State :=
  match meterHose m with
  | some h => stopFault h .fault s
  | none => endLoading .fault (setInletLock s)

/-- The conditions under which the inlet valve of an ARMED order opens (R170). -/
def inletMayOpen (o : LoadOrder) (s : State) : Bool :=
  s.loads.beforeEnded && s.field.levels.coupled && !s.field.levels.estop
    && !(s.field.levels.high.get o.compartment)
    && decide ((s.compartments.get o.compartment).book < (s.loads.ullageLimit : Int))
    && !s.loads.lock

/-- The inlet valve opens at the event that makes the last condition true: the order becomes LOADING and
channel 4 is opened (R170, R149). -/
def tryOpenInlet (s : State) : State :=
  match activeOrder s with
  | none => s
  | some (slot, o) =>
    if o.state = .armed ∧ inletMayOpen o s = true then
      openChannel .four
        (setLoads
          { s.loads with
            orders := tableSet s.loads.orders slot { o with state := .loading }
            valveOpen := true } s)
    else s

/-- A gauge of origin LOAD starts on the terms of R74, aborting a host gauge. -/
def startLoadGauge (c : CompId) (s : State) : State :=
  let s := abortHostGauge c s
  setComp c { s.compartments.get c with gauge := some { origin := .load, samples := 0, recent := [] } } s

/-- A load gauge still in flight on a compartment whose order has ended runs on as a host gauge (R171). -/
def handGaugeToHost (c : CompId) (s : State) : State :=
  let k := s.compartments.get c
  match k.gauge with
  | none => s
  | some g => setComp c { k with gauge := some { g with origin := .host } } s

/-- Docket variance: metered net less the docket's net (R174). -/
def docketVarianceOf (o : LoadOrder) : Int := (o.net : Int) - (o.expected * Config.litre : Nat)

/-- Gauge variance, when both gauges are present (R174). -/
def gaugeVarianceOf (o : LoadOrder) (after : Option Nat) : Option Int :=
  match o.gaugeBefore, after with
  | some b, some a => some (((a : Int) - b) - o.net)
  | _, _ => none

/-- A SETTLING order completes with the result of its after gauge (R174). -/
def completeOrder (slot : Nat) (o : LoadOrder) (after : Option Nat) (s : State) : State :=
  let s := setLoads
    { s.loads with
      orders := tableSet s.loads.orders slot
        { o with
          state := .complete
          gaugeAfter := after
          docketVariance := some (docketVarianceOf o)
          gaugeVariance := gaugeVarianceOf o after
          completed := some (siteTime s) }
      settleTimer := none
      watch := none } s
  raise (.load slot) (compareRestock o.compartment (releaseCompartment o.compartment s))

/-- A load gauge has ended with a net, or without one (R170, R174). -/
def loadGaugeEnded (net : Option Nat) (s : State) : State :=
  match activeOrder s with
  | none => s
  | some (slot, o) =>
    match o.state with
    | .armed =>
      setLoads
        { s.loads with
          orders := tableSet s.loads.orders slot { o with gaugeBefore := net }
          beforeEnded := true } s
    | .settling => completeOrder slot o net s
    | _ => s

/-! ### Site-day rollover (R182) -/

/-- Day used and day overrun become 0 in every non-FREE record, with a fresh check word; DAY is raised. -/
def rollover (s : State) : State :=
  raise .day
    { s with
      machines := s.machines.map (fun p => (p.1, machineStamp { p.2 with used := 0, overrun := 0 }))
      timebase := { s.timebase with lastRollover := some s.timebase.count } }

/-- How many rollover instants lie in the counts 0 to `t`, for rollover second `r`. -/
def instantsUpTo (r t : Nat) : Nat := if t < r then 0 else (t - r) / Config.dayLength + 1

/-- Some rollover instant lies after `a` and at or before `b`. -/
def instantBetween (r a b : Nat) : Bool := decide (instantsUpTo r a < instantsUpTo r b)

end Sys2Proof.Machine
end

