-- ==== Sys2Proof/Machine/Port.lean ====
section
/-! DEFINITION. How a command reaches its block and how its answer reaches the Command Port (12.3), and how a
row of the field or of the Timebase is taken. -/

namespace Sys2Proof.Machine

/-! ### Answers -/

/-- What a host command leaves behind: the state, and its answer, absent while the answer waits for a store
write (R155) and for RESTART, which has none (R193). -/
abbrev Reply := State × Option Answer

def reply (status : Status) (payload : List Byte) (s : State) : Reply := (s, some ⟨status, payload⟩)

/-- OK with a payload. -/
def okWith (payload : List Byte) (s : State) : Reply := reply .ok payload s

/-- A status with no payload. -/
def answer (status : Status) (s : State) : Reply := reply status [] s

/-! ### The port (R190, R192) -/

/-- A taken frame begins: a command waits for its block, an answer without execution is ready at once. -/
def startTaken (w : Taken) (p : Port) : Port :=
  match w.todo with
  | .run _ => { p with link := .executing, executing := some w }
  | .reply st =>
    { p with link := .result, response := some { code := w.code, sequence := w.sequence, answer := ⟨st, []⟩ } }

/-- The frame held during another command's completion begins (R192). -/
def startWaiting (p : Port) : Port :=
  match p.waiting with
  | none => p
  | some w => startTaken w { p with waiting := none }

/-- A block has completed command `c` with answer `a`: when `c` is what the port is executing, the response
becomes ready, or is discarded after a link reset. -/
def finishPort (c : Instr) (a : Answer) (p : Port) : Port :=
  match p.executing with
  | none => startWaiting { p with answer := some a }
  | some t =>
    if t.todo = .run c then
      if t.wanted then
        { p with
          answer := some a
          executing := none
          link := .result
          response := some { code := t.code, sequence := t.sequence, answer := a } }
      else startWaiting { p with answer := some a, executing := none }
    else { p with answer := some a }

def finish (c : Instr) (a : Answer) (s : State) : State := setPort (finishPort c a s.port) s

/-- The answer of a command, where there is one yet. -/
def deliver (c : Instr) (r : Reply) : State :=
  match r.2 with
  | none => r.1
  | some a => finish c a r.1

/-! ### Rows -/

/-- A host command is executed whole by its block. While a store write holds the port no command is executed
and the frame is turned away with the overrun mark (R155, R190); without power, or held in reset, the controller
takes none. -/
def hostStep (c : Instr) (body : State → Reply) (s : State) : State :=
  match s.supply.power with
  | .running =>
    match s.store.write with
    | none => evaluatePermit (deliver c (body s))
    | some _ => setPort { s.port with overrun := true } s
  | .held => s
  | .unpowered => s

def hostRow (c : Instr) (body : State → Reply) (s : State) : Host.Outcome State Fault Refusal :=
  .next (hostStep c body s)

/-- An event of the field or of the Timebase, which only a running controller takes. -/
def fieldStep (act : State → State) (s : State) : State :=
  match s.supply.power with
  | .running => evaluatePermit (act s)
  | .held => s
  | .unpowered => s

def fieldRow (act : State → State) (s : State) : Host.Outcome State Fault Refusal := .next (fieldStep act s)

/-- A filtered change of a switch (R100, R101): the level is placed, the flag set, the event delivered. A level
the input already has is no change. A controller held in reset or without power finds the pin at its level
later and takes no event. -/
def switchStep (old new : Bool) (place : Bool → Switches → Switches) (act : State → State) (s : State) : State :=
  if old = new then s
  else
    let s := setLevels (place new s.field.levels) s
    match s.supply.power with
    | .running => evaluatePermit (act (setChanged (place true s.field.changed) s))
    | .held => s
    | .unpowered => s

/-- A timer's expiry: taken when the timer runs, whose instant has then come; a stopped timer does not
expire. -/
def expire (timer : Option Nat) (act : State → State) (s : State) : State :=
  match timer with
  | none => s
  | some t => act (reachInstant t s)

end Sys2Proof.Machine
end

