-- ==== Sys2Proof/Machine/Machines.lean ====
section
/-! DEFINITION. The commands of the Machine Table (Chapter 1): machine records, tag query, ranges and the default
policy. -/

namespace Sys2Proof.Machine

/-! ### Shared parts -/

/-- The record MACHINE INSTALL writes (R11). -/
def newMachine (f : MachineFields) : MachineRecord where
  state := .active
  number := f.number
  account := f.account
  manualPermitted := f.manualPermitted
  fuel := f.fuel
  fluid := f.fluid
  allowance := f.allowance
  used := 0
  held := 0
  overrun := 0
  fuelLink := none
  fluidLink := none
  fillCount := 0
  lastFill := none
  checkWord := 0

/-- A tank's tag is in the index (R11, check 5). -/
def tankTagHeld (t : Option Tank) (s : State) : Bool :=
  match t with
  | none => false
  | some k => tagHeld k.tag s

/-- A tank whose link names a hose is present in the field set with every field unchanged (R12, check 8). -/
def linkedTankKept (link : Option HoseId) (old new : Option Tank) : Bool :=
  link.isNone || (new.isSome && new == old)

/-- allowance × 10^6 is not less than used + held − overrun (R12 check 9, R14). -/
def allowanceCovers (allowance used held overrun : Nat) : Bool :=
  decide (used + held ≤ allowance * Config.litre + overrun)

/-- The hose's open session delivers to this slot and tank (R3, R14). -/
def servesTank (slot : Nat) (kind : TankKind) (h : Hose) : Bool :=
  openState h.state && match h.session with
    | none => false
    | some x => x.machine == some (slot, kind)

/-- The hose whose open session names this slot and tank. -/
def hoseOnTank (slot : Nat) (kind : TankKind) (s : State) : Option HoseId :=
  if servesTank slot kind s.hoses.h1 then some .h1
  else if servesTank slot kind s.hoses.h2 then some .h2
  else if servesTank slot kind s.hoses.h3 then some .h3
  else none

/-- hold × 10^6 of the session at the hose, or 0 (R14). -/
def heldAt (h : Option HoseId) (s : State) : Nat :=
  match h with
  | none => 0
  | some id =>
    match (s.hoses.get id).session with
    | none => 0
    | some x => x.hold * Config.litre

/-- A field set within its ranges for the rewrite form (R14). -/
def rewriteFieldsOk (f : MachineFields) (used overrun fills : Nat) : Bool :=
  machineFieldsOk f && decide (used < 281474976710656) && decide (overrun ≤ used)
    && decide (fills ≤ Config.countMax)

/-- The record of an accepted change form (R12). -/
def amendedMachine (f : MachineFields) (m : MachineRecord) : MachineRecord :=
  { m with
    number := f.number
    account := f.account
    manualPermitted := f.manualPermitted
    allowance := f.allowance
    fuel := f.fuel
    fluid := f.fluid }

/-- The record of an accepted rewrite form (R14). -/
def rewrittenMachine (f : MachineFields) (used overrun fills : Nat) (fuelLink fluidLink : Option HoseId)
    (held : Nat) (m : MachineRecord) : MachineRecord :=
  { amendedMachine f m with
    state := if m.state = .suspended then .suspended else .active
    used := used
    held := held
    overrun := overrun
    fuelLink := fuelLink
    fluidLink := fluidLink
    fillCount := fills
    lastFill := none }

/-- The writes of an accepted amend of either form: record, references, index (R6, R8, R22). -/
def placeAmended (slot : Nat) (old new : MachineRecord) (s : State) : State :=
  reindex slot old.fuel old.fluid new.fuel new.fluid
    (moveReference (some old.account) (some new.account) (writeMachine slot new s))

/-- The status of a look-up with verification. -/
def lookupStatus (verified : Bool) : Status := if verified then .ok else .corrupt

/-- A record as it stands in a slot, after a look-up. -/
def machineBytesAt (slot : Nat) (s : State) : List Byte :=
  match machineAt slot s with
  | none => []
  | some m => machineBytes m

/-! ### Machine commands (1.6) -/

/-- R11. -/
def doMachineInstall (f : MachineFields) (s : State) : Reply :=
  if !machineFieldsOk f then answer .malformed s
  else
    match lowestFree s.machines Config.machineSlots with
    | none => answer .tableFull s
    | some slot =>
      if (accountAt f.account s).isNone then answer .noRecord s
      else if numberHeldElsewhere none f.number s then answer .duplicateNumber s
      else if tankTagHeld f.fuel s || tankTagHeld f.fluid s then answer .duplicateTag s
      else
        okWith (u16 slot)
          (addReference f.account
            (indexTank slot .fluid f.fluid (indexTank slot .fuel f.fuel (writeMachine slot (newMachine f) s))))

/-- R12, R13. -/
def doMachineAmendChange (slot : Nat) (f : MachineFields) (s : State) : Reply :=
  if !(machineSlotOk slot && machineFieldsOk f) then answer .malformed s
  else
    match machineAt slot s with
    | none => answer .noRecord s
    | some m =>
      if m.state = .retiring then answer .state s
      else if m.state = .quarantined then answer .corrupt s
      else
        match verifyMachine slot m s with
        | (false, s) => answer .corrupt s
        | (true, s) =>
          if (accountAt f.account s).isNone then answer .noRecord s
          else if numberHeldElsewhere (some slot) f.number s then answer .duplicateNumber s
          else if tagHeldElsewhere slot f.fuel s || tagHeldElsewhere slot f.fluid s then answer .duplicateTag s
          else if !(linkedTankKept m.fuelLink m.fuel f.fuel && linkedTankKept m.fluidLink m.fluid f.fluid) then
            answer .inUse s
          else if !allowanceCovers f.allowance m.used m.held m.overrun then answer .belowCommitted s
          else answer .ok (placeAmended slot m (amendedMachine f m) s)

/-- R14. -/
def doMachineAmendRewrite (slot : Nat) (f : MachineFields) (used overrun fills : Nat) (s : State) : Reply :=
  if !(machineSlotOk slot && rewriteFieldsOk f used overrun fills) then answer .malformed s
  else
    match machineAt slot s with
    | none => answer .noRecord s
    | some m =>
      let fuelHose := hoseOnTank slot .fuel s
      let fluidHose := hoseOnTank slot .fluid s
      let held := heldAt fuelHose s
      if m.state = .retiring then answer .state s
      else if (accountAt f.account s).isNone then answer .noRecord s
      else if numberHeldElsewhere (some slot) f.number s then answer .duplicateNumber s
      else if tagHeldElsewhere slot f.fuel s || tagHeldElsewhere slot f.fluid s then answer .duplicateTag s
      else if (fuelHose.isSome && f.fuel.isNone) || (fluidHose.isSome && f.fluid.isNone) then answer .inUse s
      else if !allowanceCovers f.allowance used held overrun then answer .belowCommitted s
      else
        answer .ok
          (placeAmended slot m (rewrittenMachine f used overrun fills fuelHose fluidHose held m) s)

/-- R15. A CORRUPT response shows the record as the look-up leaves it, quarantined: the model's choice
(notes/assumptions/42.md). -/
def doMachineRead (slot : Nat) (s : State) : Reply :=
  if !machineSlotOk slot then answer .malformed s
  else
    match machineAt slot s with
    | none => answer .noRecord s
    | some m =>
      let v := verifyMachine slot m s
      reply (lookupStatus v.1) (machineBytesAt slot v.2) v.2

/-- R16, with the record of a CORRUPT response as in MACHINE READ (notes/assumptions/42.md). A tag whose index entry names a
FREE slot is answered NO_RECORD: the model's choice (notes/assumptions/28.md). -/
def doMachineFind (key : MachineKey) (s : State) : Reply :=
  match key with
  | .tag tag =>
    if !tagOk tag then answer .malformed s
    else
      match tableGet s.tagIndex tag with
      | none => answer .noRecord s
      | some e =>
        match machineAt e.slot s with
        | none => answer .noRecord s
        | some m =>
          let v := verifyMachine e.slot m s
          reply (lookupStatus v.1) (u16 e.slot ++ u8 (tankCode e.tank) ++ machineBytesAt e.slot v.2) v.2
  | .number number =>
    if !inRange 1 999999 number then answer .malformed s
    else
      match tableFind (fun _ m => m.number == number) s.machines with
      | none => answer .noRecord s
      | some (slot, m) =>
        let v := verifyMachine slot m s
        reply (lookupStatus v.1) (u16 slot ++ machineBytesAt slot v.2) v.2

/-- R17. -/
def doMachineSuspend (slot : Nat) (s : State) : Reply :=
  if !machineSlotOk slot then answer .malformed s
  else
    match machineAt slot s with
    | none => answer .noRecord s
    | some m =>
      if m.state = .retiring ∨ m.state = .quarantined then answer .state s
      else
        match verifyMachine slot m s with
        | (false, s) => answer .corrupt s
        | (true, s) =>
          if m.state = .active then answer .ok (writeMachine slot { m with state := .suspended } s)
          else answer .ok s

/-- R17. -/
def doMachineReinstate (slot : Nat) (s : State) : Reply :=
  if !machineSlotOk slot then answer .malformed s
  else
    match machineAt slot s with
    | none => answer .noRecord s
    | some m =>
      if m.state = .retiring ∨ m.state = .quarantined then answer .state s
      else
        match verifyMachine slot m s with
        | (false, s) => answer .corrupt s
        | (true, s) =>
          if m.state = .suspended then answer .ok (writeMachine slot { m with state := .active } s)
          else answer .ok s

/-- R18, R19. The state reached is FREE (0) or RETIRING. -/
def doMachineRetire (slot : Nat) (s : State) : Reply :=
  if !machineSlotOk slot then answer .malformed s
  else
    match machineAt slot s with
    | none => answer .noRecord s
    | some m =>
      if m.state = .retiring then okWith (u8 (machineStateCode .retiring)) s
      else if m.fuelLink = none ∧ m.fluidLink = none then okWith (u8 0) (freeMachine slot m s)
      else okWith (u8 (machineStateCode .retiring)) (writeMachine slot { m with state := .retiring } s)

/-! ### Tags and ranges -/

/-- The answer of TAG QUERY for a resolution: result kind MACHINE (0), RANGE (1) or DEFAULT (2) with its fields
(R10). For an index entry that names a FREE slot it carries the slot and the tank alone: the model's choice
(notes/assumptions/28.md). -/
def resolutionBytes (r : Resolution) (s : State) : List Byte :=
  match r with
  | .machine t =>
    u8 0 ++ u16 t.slot ++ u8 (tankCode t.tank) ++ match machineAt t.slot s with
      | none => []
      | some m => u32 m.number ++ u8 m.account ++ u8 (machineStateCode m.state)
  | .range i e =>
    u8 1 ++ u8 i ++ u8 (policyCode e.policy) ++ match e.policy with
      | .allow => u8 e.account ++ gradeSetByte e.grades ++ u16 e.limit
      | .refuse => []
      | .refer => []
  | .default p => u8 2 ++ u8 (policyCode p)

/-- R10. -/
def doTagQuery (tag : Nat) (s : State) : Reply :=
  if !tagOk tag then answer .malformed s else okWith (resolutionBytes (resolve tag s) s) s

/-- The account an entry refers to while it is enabled with policy ALLOW (R8). -/
def rangeReference (e : RangeEntry) : Option Nat :=
  if e.enabled && e.policy == .allow then some e.account else none

/-- An enabled ALLOW entry names a FREE account (R20). -/
def rangeAccountFree (e : RangeEntry) (s : State) : Bool :=
  match rangeReference e with
  | none => false
  | some a => (accountAt a s).isNone

/-- R20. -/
def doRangeWrite (entry : Nat) (e : RangeEntry) (s : State) : Reply :=
  match s.ranges[entry]? with
  | none => answer .malformed s
  | some old =>
    if !rangeEntryOk e then answer .malformed s
    else if rangeAccountFree e s then answer .noRecord s
    else
      answer .ok
        (moveReference (rangeReference old) (rangeReference e)
          { s with ranges := s.ranges.setIfInBounds entry e })

/-- R20. -/
def doRangeRead (entry : Nat) (s : State) : Reply :=
  match s.ranges[entry]? with
  | none => answer .malformed s
  | some e => okWith (rangeBytes e ++ u8 (policyCode s.defaultPolicy)) s

/-- R21. -/
def doDefaultPolicySet (policy : Policy) (s : State) : Reply :=
  if policy = .allow then answer .malformed s else answer .ok { s with defaultPolicy := policy }

/-! ### Rows -/

/-- MACHINE INSTALL (R11). -/
def execMachineInstall (f : MachineFields) (s : State) : Host.Outcome State Fault Refusal :=
  hostRow (.machineInstall f) (doMachineInstall f) s

/-- MACHINE AMEND, change form (R12). -/
def execMachineAmendChange (slot : Nat) (f : MachineFields) (s : State) : Host.Outcome State Fault Refusal :=
  hostRow (.machineAmendChange slot f) (doMachineAmendChange slot f) s

/-- MACHINE AMEND, rewrite form (R14). -/
def execMachineAmendRewrite (slot : Nat) (f : MachineFields) (used overrun fills : Nat) (s : State) :
    Host.Outcome State Fault Refusal :=
  hostRow (.machineAmendRewrite slot f used overrun fills) (doMachineAmendRewrite slot f used overrun fills) s

/-- MACHINE READ (R15). -/
def execMachineRead (slot : Nat) (s : State) : Host.Outcome State Fault Refusal :=
  hostRow (.machineRead slot) (doMachineRead slot) s

/-- MACHINE FIND (R16). -/
def execMachineFind (key : MachineKey) (s : State) : Host.Outcome State Fault Refusal :=
  hostRow (.machineFind key) (doMachineFind key) s

/-- MACHINE SUSPEND (R17). -/
def execMachineSuspend (slot : Nat) (s : State) : Host.Outcome State Fault Refusal :=
  hostRow (.machineSuspend slot) (doMachineSuspend slot) s

/-- MACHINE REINSTATE (R17). -/
def execMachineReinstate (slot : Nat) (s : State) : Host.Outcome State Fault Refusal :=
  hostRow (.machineReinstate slot) (doMachineReinstate slot) s

/-- MACHINE RETIRE (R18). -/
def execMachineRetire (slot : Nat) (s : State) : Host.Outcome State Fault Refusal :=
  hostRow (.machineRetire slot) (doMachineRetire slot) s

/-- TAG QUERY (R10). -/
def execTagQuery (tag : Nat) (s : State) : Host.Outcome State Fault Refusal :=
  hostRow (.tagQuery tag) (doTagQuery tag) s

/-- RANGE WRITE (R20). -/
def execRangeWrite (entry : Nat) (e : RangeEntry) (s : State) : Host.Outcome State Fault Refusal :=
  hostRow (.rangeWrite entry e) (doRangeWrite entry e) s

/-- RANGE READ (R20). -/
def execRangeRead (entry : Nat) (s : State) : Host.Outcome State Fault Refusal :=
  hostRow (.rangeRead entry) (doRangeRead entry) s

/-- DEFAULT POLICY SET (R21). -/
def execDefaultPolicySet (policy : Policy) (s : State) : Host.Outcome State Fault Refusal :=
  hostRow (.defaultPolicySet policy) (doDefaultPolicySet policy) s

end Sys2Proof.Machine
end

