-- ==== Sys2Proof/Machine/Accounts.lean ====
section
/-! DEFINITION. The commands of the Account Table (Chapter 3): account records, settlement, periods, statements
and prices. -/

namespace Sys2Proof.Machine

/-! ### Shared parts -/

def PeriodFigures.zero : PeriodFigures where
  net := ByGrade.all 0
  charges := 0
  fills := 0

/-- The record ACCOUNT OPEN writes (R47). -/
def newAccount (number : Nat) (tier : Tier) (limit : Nat) : AccountRecord where
  state := .opened
  number := number
  tier := tier
  limit := limit
  balance := 0
  held := 0
  openSessions := 0
  references := 0
  period := 1
  current := PeriodFigures.zero
  previous := none
  checkWord := 0

/-- The hose's open session bills to the slot. -/
def billsTo (slot : Nat) (h : Hose) : Option Session :=
  if openState h.state then
    match h.session with
    | none => none
    | some x => if x.account = slot then some x else none
  else none

/-- The open sessions the Hose Controllers hold for a slot. -/
def sessionsOf (slot : Nat) (s : State) : List Session := s.hoses.toList.filterMap (billsTo slot)

/-- Held rebuilt: the sum of their money holds (R49). -/
def rebuiltHeld (slot : Nat) (s : State) : Nat := ((sessionsOf slot s).map Session.moneyHold).sum

/-- Open sessions rebuilt: their number (R49). -/
def rebuiltOpen (slot : Nat) (s : State) : Nat := (sessionsOf slot s).length

/-- References rebuilt: machine records and enabled ALLOW entries that name the slot (R43, R49). -/
def rebuiltReferences (slot : Nat) (s : State) : Nat :=
  (s.machines.filter (fun p => p.2.account == slot)).length
    + (s.ranges.toList.filter (fun e => rangeReference e == some slot)).length

/-- A record with verification passed and not QUARANTINED is handed to `f`; every other look-up answers
CORRUPT (R48, R53, R54, R55). -/
def withTrusted (slot : Nat) (a : AccountRecord) (f : State → Reply) (s : State) : Reply :=
  if a.state = .quarantined then answer .corrupt s
  else
    match verifyAccount slot a s with
    | (false, s) => answer .corrupt s
    | (true, s) => f s

/-- A record as it stands in a slot, after a look-up. -/
def accountBytesAt (slot : Nat) (s : State) : List Byte :=
  match accountAt slot s with
  | none => []
  | some a => accountBytes a

/-- The statement PERIOD CLOSE writes (R54). -/
def statementOf (time : Nat) (a : AccountRecord) : Statement where
  period := a.period
  closeTime := time
  figures := a.current
  unread := true

/-- Period numbers wrap from 65,535 to 1. -/
def nextPeriod (n : Nat) : Nat := if n < 65535 then n + 1 else 1

/-- The record after PERIOD CLOSE (R54). -/
def closedPeriod (time : Nat) (a : AccountRecord) : AccountRecord :=
  { a with
    previous := some (statementOf time a)
    current := PeriodFigures.zero
    period := nextPeriod a.period }

/-! ### Account commands (3.6 to 3.9) -/

/-- R47. -/
def doAccountOpen (number tier limit : Nat) (s : State) : Reply :=
  match tierOf tier with
  | none => answer .malformed s
  | some t =>
    if !accountFieldsOk number limit then answer .malformed s
    else
      match lowestFree s.accounts Config.accountSlots with
      | none => answer .tableFull s
      | some slot =>
        if accountNumberHeldElsewhere none number s then answer .duplicateNumber s
        else okWith (u8 slot) (writeAccount slot (newAccount number t limit) s)

/-- R48. -/
def doAccountAmendChange (slot number tier limit : Nat) (s : State) : Reply :=
  match tierOf tier with
  | none => answer .malformed s
  | some t =>
    if !(accountSlotOk slot && accountFieldsOk number limit) then answer .malformed s
    else
      match accountAt slot s with
      | none => answer .noRecord s
      | some a =>
        withTrusted slot a
          (fun s =>
            if accountNumberHeldElsewhere (some slot) number s then answer .duplicateNumber s
            else answer .ok (writeAccount slot { a with number := number, tier := t, limit := limit } s)) s

/-- R49. -/
def doAccountAmendRewrite (slot number tier limit balance period : Nat) (current : PeriodFigures)
    (s : State) : Reply :=
  match tierOf tier with
  | none => answer .malformed s
  | some t =>
    if !(accountSlotOk slot && accountFieldsOk number limit && decide (balance ≤ Config.moneyMax)
        && inRange 1 65535 period && periodFiguresOk current) then answer .malformed s
    else
      match accountAt slot s with
      | none => answer .noRecord s
      | some a =>
        if accountNumberHeldElsewhere (some slot) number s then answer .duplicateNumber s
        else
          okWith (u64 (rebuiltHeld slot s) ++ u8 (rebuiltOpen slot s) ++ u16 (rebuiltReferences slot s))
            (writeAccount slot
              { state := if a.state = .stopped then .stopped else .opened
                number := number
                tier := t
                limit := limit
                balance := balance
                held := rebuiltHeld slot s
                openSessions := rebuiltOpen slot s
                references := rebuiltReferences slot s
                period := period
                current := current
                previous := none
                checkWord := 0 } s)

/-- The slot an ACCOUNT READ names, or the status it is refused with (R50). -/
def accountKeySlot (key : AccountKey) (s : State) : Except Status Nat :=
  match key with
  | .slot slot => if accountSlotOk slot then .ok slot else .error .malformed
  | .number number =>
    if inRange 1 65535 number then
      match tableFind (fun _ a => a.number == number) s.accounts with
      | none => .error .noRecord
      | some (slot, _) => .ok slot
    else .error .malformed

/-- R50. -/
def doAccountRead (key : AccountKey) (s : State) : Reply :=
  match accountKeySlot key s with
  | .error st => answer st s
  | .ok slot =>
    match accountAt slot s with
    | none => answer .noRecord s
    | some a =>
      let v := verifyAccount slot a s
      reply (lookupStatus v.1) (u8 slot ++ accountBytesAt slot v.2) v.2

/-- R51. -/
def doAccountStop (slot : Nat) (s : State) : Reply :=
  if !accountSlotOk slot then answer .malformed s
  else
    match accountAt slot s with
    | none => answer .noRecord s
    | some a =>
      if a.state = .quarantined then answer .state s
      else
        match verifyAccount slot a s with
        | (false, s) => answer .corrupt s
        | (true, s) =>
          if a.state = .opened then answer .ok (writeAccount slot { a with state := .stopped } s)
          else answer .ok s

/-- R51. -/
def doAccountResume (slot : Nat) (s : State) : Reply :=
  if !accountSlotOk slot then answer .malformed s
  else
    match accountAt slot s with
    | none => answer .noRecord s
    | some a =>
      if a.state = .quarantined then answer .state s
      else
        match verifyAccount slot a s with
        | (false, s) => answer .corrupt s
        | (true, s) =>
          if a.state = .stopped then answer .ok (writeAccount slot { a with state := .opened } s)
          else answer .ok s

/-- R52. -/
def doAccountRetire (slot : Nat) (s : State) : Reply :=
  if !accountSlotOk slot then answer .malformed s
  else
    match accountAt slot s with
    | none => answer .noRecord s
    | some a =>
      let references := if a.state = .quarantined then rebuiltReferences slot s else a.references
      let sessions := if a.state = .quarantined then rebuiltOpen slot s else a.openSessions
      if references = 0 ∧ sessions = 0 then
        okWith (accountBytes a) { s with accounts := tableErase s.accounts slot }
      else reply .inUse (u16 references ++ u8 sessions) s

/-- R53. -/
def doSettle (slot amount : Nat) (s : State) : Reply :=
  if !(accountSlotOk slot && decide (amount ≤ Config.moneyMax)) then answer .malformed s
  else
    match accountAt slot s with
    | none => answer .noRecord s
    | some a =>
      withTrusted slot a
        (fun s =>
          if a.balance < amount then reply .overSettle (u64 a.balance) s
          else if amount = 0 then okWith (u64 a.balance) s
          else okWith (u64 (a.balance - amount)) (writeAccount slot { a with balance := a.balance - amount } s)) s

/-- The previous statement stands unread. -/
def statementUnread (a : AccountRecord) : Option Nat :=
  match a.previous with
  | none => none
  | some t => if t.unread then some t.period else none

/-- R54. -/
def doPeriodClose (slot : Nat) (s : State) : Reply :=
  if !accountSlotOk slot then answer .malformed s
  else
    match accountAt slot s with
    | none => answer .noRecord s
    | some a =>
      withTrusted slot a
        (fun s =>
          match statementUnread a with
          | some n => reply .unread (u16 n) s
          | none => okWith (u16 a.period) (writeAccount slot (closedPeriod (siteTime s) a) s)) s

/-- R55. -/
def doStatementRead (slot : Nat) (s : State) : Reply :=
  if !accountSlotOk slot then answer .malformed s
  else
    match accountAt slot s with
    | none => answer .noRecord s
    | some a =>
      let v := verifyAccount slot a s
      reply (lookupStatus (v.1 && a.state != .quarantined)) (optional statementBytes a.previous) v.2

/-- R55. A period number that is not the statement's answers STATE. -/
def doStatementRelease (slot period : Nat) (s : State) : Reply :=
  if !(accountSlotOk slot && decide (period ≤ 65535)) then answer .malformed s
  else
    match accountAt slot s with
    | none => answer .noRecord s
    | some a =>
      withTrusted slot a
        (fun s =>
          match a.previous with
          | none => answer .state s
          | some t =>
            if t.period ≠ period then answer .state s
            else if t.unread then
              answer .ok (writeAccount slot { a with previous := some { t with unread := false } } s)
            else answer .ok s) s

/-! ### Prices (3.10) -/

/-- R56. -/
def doPriceWrite (tier : Nat) (grade : Grade) (price : Nat) (s : State) : Reply :=
  match tierOf tier with
  | none => answer .malformed s
  | some t =>
    if price < 1000000 then
      okWith (u32 ((s.prices.get t).get grade))
        { s with prices := s.prices.set t ((s.prices.get t).set grade price) }
    else answer .malformed s

/-- R56: tier 0 to 3, and within each tier G1, G2, G3. -/
def doPriceRead (s : State) : Reply := okWith (s.prices.toList.flatMap (fun p => p.toList.flatMap u32)) s

/-! ### Rows -/

/-- ACCOUNT OPEN (R47). -/
def execAccountOpen (number tier limit : Nat) (s : State) : Host.Outcome State Fault Refusal :=
  hostRow (.accountOpen number tier limit) (doAccountOpen number tier limit) s

/-- ACCOUNT AMEND, change form (R48). -/
def execAccountAmendChange (slot number tier limit : Nat) (s : State) : Host.Outcome State Fault Refusal :=
  hostRow (.accountAmendChange slot number tier limit) (doAccountAmendChange slot number tier limit) s

/-- ACCOUNT AMEND, rewrite form (R49). -/
def execAccountAmendRewrite (slot number tier limit balance period : Nat) (current : PeriodFigures) (s : State) :
    Host.Outcome State Fault Refusal :=
  hostRow (.accountAmendRewrite slot number tier limit balance period current)
    (doAccountAmendRewrite slot number tier limit balance period current) s

/-- ACCOUNT READ (R50). -/
def execAccountRead (key : AccountKey) (s : State) : Host.Outcome State Fault Refusal :=
  hostRow (.accountRead key) (doAccountRead key) s

/-- ACCOUNT STOP (R51). -/
def execAccountStop (slot : Nat) (s : State) : Host.Outcome State Fault Refusal :=
  hostRow (.accountStop slot) (doAccountStop slot) s

/-- ACCOUNT RESUME (R51). -/
def execAccountResume (slot : Nat) (s : State) : Host.Outcome State Fault Refusal :=
  hostRow (.accountResume slot) (doAccountResume slot) s

/-- ACCOUNT RETIRE (R52). -/
def execAccountRetire (slot : Nat) (s : State) : Host.Outcome State Fault Refusal :=
  hostRow (.accountRetire slot) (doAccountRetire slot) s

/-- SETTLE (R53). -/
def execSettle (slot amount : Nat) (s : State) : Host.Outcome State Fault Refusal :=
  hostRow (.settle slot amount) (doSettle slot amount) s

/-- PERIOD CLOSE (R54). -/
def execPeriodClose (slot : Nat) (s : State) : Host.Outcome State Fault Refusal :=
  hostRow (.periodClose slot) (doPeriodClose slot) s

/-- STATEMENT READ (R55). -/
def execStatementRead (slot : Nat) (s : State) : Host.Outcome State Fault Refusal :=
  hostRow (.statementRead slot) (doStatementRead slot) s

/-- STATEMENT RELEASE (R55). -/
def execStatementRelease (slot period : Nat) (s : State) : Host.Outcome State Fault Refusal :=
  hostRow (.statementRelease slot period) (doStatementRelease slot period) s

/-- PRICE WRITE (R56). -/
def execPriceWrite (tier : Nat) (grade : Grade) (price : Nat) (s : State) : Host.Outcome State Fault Refusal :=
  hostRow (.priceWrite tier grade price) (doPriceWrite tier grade price) s

/-- PRICE READ (R56). -/
def execPriceRead (s : State) : Host.Outcome State Fault Refusal := hostRow .priceRead doPriceRead s

end Sys2Proof.Machine
end

