-- ==== Sys2Proof/Machine/Authorise.lean ====
section
/-! DEFINITION. The Authorisation Unit (Chapter 5): the checks, the hold computation, the taking of holds, referred
requests, and the commands AUTHORISE MANUAL and REFER REPLY. -/

namespace Sys2Proof.Machine

/-! ### Terms of a request (R83) -/

/-- What a request that passed its checks carries into the hold computation. `allowance` is the ALLOWANCE term,
present for a machine's fuel tank. -/
structure Terms where
  kind : IdentityKind
  tag : Option Nat
  machine : Option (Nat × TankKind)
  account : Nat
  grades : GradeSet
  limit : Nat
  preset : Option Nat
  allowance : Option Nat
  ceiling : Option Nat
deriving DecidableEq, Repr

/-- The compartment settled on, its grade and the hold. -/
structure Choice where
  comp : CompId
  grade : Grade
  hold : Nat
deriving DecidableEq, Repr

/-- How a request ends. -/
inductive Verdict where
  | refused (reason : Reason)
  | referred (w : Waiting)
  | granted (t : Terms) (c : Choice)
deriving DecidableEq, Repr

/-! ### Checks 1 to 5 (R80) -/

/-- The hose's class is fluid. -/
def fluidHose : HoseId → Bool
  | .h3 => true
  | _ => false

def calibrated (m : MeterId) (s : State) : Bool := (s.store.meters.get m).calibrated

/-- The hose is OUT_OF_SERVICE or LOCKED, or a STOP-severity fault is valid for it (check 3). -/
def hoseUnavailable (id : HoseId) (s : State) : Bool :=
  (s.hoses.get id).state == .outOfService || (s.hoses.get id).state == .locked || hoseStopValid id s

/-- The first of checks 1 to 5 that fails. -/
def hoseCheck (id : HoseId) (s : State) : Option Reason :=
  if s.field.levels.estop then some .estop
  else if !s.field.levels.park then some .vehicleMoving
  else if hoseUnavailable id s then some .hoseUnavailable
  else if !calibrated id.meter s then some .uncalibrated
  else if (s.hoses.get id).state = .complete then some .uncollected
  else none

/-! ### Checks 6 to 10 -/

/-- Check 6: the record is ACTIVE and passes verification; a RETIRING record is not verified (R23). -/
def checkRecord (slot : Nat) (m : MachineRecord) (s : State) : Option Reason × State :=
  if m.state = .retiring then (some .retired, s)
  else
    match verifyMachine slot m s with
    | (false, s) => (some .corrupt, s)
    | (true, s) =>
      match m.state with
      | .active => (none, s)
      | .suspended => (some .suspended, s)
      | .retiring => (some .retired, s)
      | .quarantined => (some .corrupt, s)

/-- Check 9: the account is OPEN and passes verification (R58). -/
def checkAccount (slot : Nat) (s : State) : Bool × State :=
  match accountAt slot s with
  | none => (false, s)
  | some a =>
    match verifyAccount slot a s with
    | (false, s) => (false, s)
    | (true, s) => (a.state == .opened, s)

def tankOf (kind : TankKind) (m : MachineRecord) : Option Tank :=
  match kind with
  | .fuel => m.fuel
  | .fluid => m.fluid

def linkOf (kind : TankKind) (m : MachineRecord) : Option HoseId :=
  match kind with
  | .fuel => m.fuelLink
  | .fluid => m.fluidLink

/-- The allowance remainder in whole litres (R2, R84). A record whose damaged figures break the law of R2 has a remainder the
spec does not state: a free value (notes/assumptions/9.md). -/
def allowanceRemainder (m : MachineRecord) : Nat :=
  minus (m.allowance * Config.litre + m.overrun) (m.used + m.held) / Config.litre

/-- The terms of a machine tank (R83). -/
def machineTerms (kind : IdentityKind) (tag preset : Option Nat) (slot : Nat) (tank : TankKind) (k : Tank)
    (m : MachineRecord) : Terms where
  kind := kind
  tag := tag
  machine := some (slot, tank)
  account := m.account
  grades := k.grades
  limit := k.capacity
  preset := preset
  allowance := match tank with
    | .fuel => some (allowanceRemainder m)
    | .fluid => none
  ceiling := k.ceiling

/-- The terms of an ALLOW entry (R83). -/
def rangeTerms (tag : Nat) (e : RangeEntry) : Terms where
  kind := .range
  tag := some tag
  machine := none
  account := e.account
  grades := e.grades
  limit := e.limit
  preset := none
  allowance := none
  ceiling := none

/-! ### The hold (R84 to R86) -/

/-- The LIMIT term, with the preset where one was given. -/
def limitTerm (t : Terms) : Nat :=
  match t.preset with
  | none => t.limit
  | some p => min t.limit p

/-- The CREDIT term, absent at a price of 0; a negative headroom is 0 (R45). -/
def creditTerm (a : AccountRecord) (price : Nat) : Option Nat :=
  if price = 0 then none else some ((a.limit - a.balance - a.held) / price)

/-- The least of a term and an optional one. -/
def least (n : Nat) (o : Option Nat) : Nat :=
  match o with
  | none => n
  | some k => min n k

/-- The unreduced hold at a price (R84). -/
def holdAt (t : Terms) (a : AccountRecord) (price : Nat) : Nat :=
  least (least (limitTerm t) t.allowance) (creditTerm a price)

/-- The reason for the least term: the first of ALLOWANCE, CREDIT, LIMIT among equals (R86). -/
def limitingReason (t : Terms) (a : AccountRecord) (price : Nat) : Reason :=
  let h := holdAt t a price
  if t.allowance = some h then .allowance
  else if creditTerm a price = some h then .credit
  else .limit

def priceFor (a : AccountRecord) (g : Grade) (s : State) : Nat := (s.prices.get a.tier).get g

/-- The grade of a compartment that is a candidate for a permitted set (R85). -/
def candidateGrade (grades : GradeSet) (k : Compartment) : Option Grade :=
  match k.grade with
  | none => none
  | some g => if inSet grades g && k.state == .inService then some g else none

/-- The candidates of a preference list, in list order. -/
def candidates (prefs : List CompId) (grades : GradeSet) (s : State) : List (CompId × Grade) :=
  prefs.filterMap (fun c => (candidateGrade grades (s.compartments.get c)).map (fun g => (c, g)))

def availableAt (c : CompId) (s : State) : Int := available (s.compartments.get c)

/-- The first candidate whose available stock covers its unreduced hold. -/
def firstCovering (t : Terms) (a : AccountRecord) (s : State) (cs : List (CompId × Grade)) :
    Option (CompId × Grade) :=
  cs.find? (fun p => decide (((holdAt t a (priceFor a p.2 s) * Config.litre : Nat) : Int) ≤ availableAt p.1 s))

/-- The candidate with the largest available stock, the earliest on a tie. -/
def largestStock (s : State) (p : CompId × Grade) : List (CompId × Grade) → CompId × Grade
  | [] => p
  | q :: rest => if availableAt p.1 s < availableAt q.1 s then largestStock s q rest else largestStock s p rest

/-- Available stock in whole litres, 0 when negative. -/
def wholeLitres (x : Int) : Nat := x.toNat / Config.litre

/-- Compartment, grade and hold of a request, or the reason it is refused (R85, R86). -/
def settleHold (id : HoseId) (t : Terms) (a : AccountRecord) (s : State) : Except Reason Choice :=
  let setup := (s.hoses.get id).setup
  match candidates setup.preference t.grades s with
  | [] => .error .wrongGrade
  | p :: rest =>
    match firstCovering t a s (p :: rest) with
    | some (c, g) =>
      let hold := holdAt t a (priceFor a g s)
      if hold < setup.minFill then .error (limitingReason t a (priceFor a g s))
      else .ok { comp := c, grade := g, hold := hold }
    | none =>
      let q := largestStock s p rest
      let hold := wholeLitres (availableAt q.1 s)
      if hold < setup.minFill then .error .noStock else .ok { comp := q.1, grade := q.2, hold := hold }

/-- The account check, then the hold computation, for terms that passed the checks before it. -/
def judgeTerms (id : HoseId) (t : Terms) (s : State) : Verdict × State :=
  match checkAccount t.account s with
  | (false, s) => (.refused .accountStopped, s)
  | (true, s) =>
    match accountAt t.account s with
    | none => (.refused .accountStopped, s)
    | some a =>
      match settleHold id t a s with
      | .error r => (.refused r, s)
      | .ok c => (.granted t c, s)

/-- Checks 7 to 10 and the hold computation for a machine tank that passed check 6. `manual` asks for manual
permitted (check 10). -/
def judgeTank (id : HoseId) (manual : Bool) (t : Terms) (tank : TankKind) (m : MachineRecord) (s : State) :
    Verdict × State :=
  if (linkOf tank m).isSome then (.refused .inSession, s)
  else if (tank == .fluid) != fluidHose id then (.refused .misfuel, s)
  else if manual && !m.manualPermitted then
    match checkAccount t.account s with
    | (false, s) => (.refused .accountStopped, s)
    | (true, s) => (.refused .manualRefused, s)
  else judgeTerms id t s

/-- A tag-initiated request (R80). -/
def judgeTag (id : HoseId) (tag : Nat) (s : State) : Verdict × State :=
  match hoseCheck id s with
  | some r => (.refused r, s)
  | none =>
    match resolve tag s with
    | .machine e =>
      match machineAt e.slot s with
      | none => (.refused .corrupt, s)
      | some m =>
        match checkRecord e.slot m s with
        | (some r, s) => (.refused r, s)
        | (none, s) =>
          match tankOf e.tank m with
          | none => (.refused .corrupt, s)
          | some k => judgeTank id false (machineTerms .tag (some tag) none e.slot e.tank k m) e.tank m s
    | .range i e =>
      match e.policy with
      | .refuse => (.refused .unknownTag, s)
      | .refer => (.referred { tag := tag, entry := some i }, s)
      | .allow =>
        if fluidSet e.grades != fluidHose id then (.refused .misfuel, s) else judgeTerms id (rangeTerms tag e) s
    | .default p =>
      if p = .refer then (.referred { tag := tag, entry := none }, s) else (.refused .unknownTag, s)

/-- A manual request (R82). -/
def judgeManual (id : HoseId) (number : Nat) (tank : TankKind) (preset : Option Nat) (s : State) :
    Verdict × State :=
  match hoseCheck id s with
  | some r => (.refused r, s)
  | none =>
    match tableFind (fun _ m => m.number == number) s.machines with
    | none => (.refused .noRecord, s)
    | some (slot, m) =>
      match tankOf tank m with
      | none => (.refused .noRecord, s)
      | some k =>
        match checkRecord slot m s with
        | (some r, s) => (.refused r, s)
        | (none, s) => judgeTank id true (machineTerms .manual none preset slot tank k m) tank m s

/-- The terms a REFER REPLY ACCEPT gives the waiting request (R83, R91). -/
def replyTerms (tag : Option Nat) (account : Nat) (grades : GradeSet) (limit : Nat) : Terms where
  kind := .referred
  tag := tag
  machine := none
  account := account
  grades := grades
  limit := limit
  preset := none
  allowance := none
  ceiling := none

/-- Checks 1 to 4, check 8 and the hold computation for an accepted request whose account has passed (R91). -/
def judgeReply (id : HoseId) (t : Terms) (a : AccountRecord) (s : State) : Except Reason Choice :=
  match hoseCheck id s with
  | some r => .error r
  | none => if fluidSet t.grades != fluidHose id then .error .misfuel else settleHold id t a s

/-! ### Taking the holds (R87 to R89) -/

/-- Session numbers wrap from 65,535 to 1. -/
def nextSession (n : Nat) : Nat := if n < 65535 then n + 1 else 1

/-- Flow set point: the hose's maximum flow, or the tank's ceiling where lower (R87). -/
def flowSetPoint (maxFlow : Nat) (ceiling : Option Nat) : Nat := least maxFlow ceiling

/-- The new session record (R89). -/
def newSession (id : HoseId) (t : Terms) (c : Choice) (price : Nat) (s : State) : Session where
  number := nextSession (s.hoses.get id).lastNumber
  kind := t.kind
  tag := t.tag
  machine := t.machine
  account := t.account
  compartment := c.comp
  grade := c.grade
  price := price
  hold := c.hold
  moneyHold := c.hold * price
  setPoint := flowSetPoint (s.hoses.get id).setup.maxFlow t.ceiling
  gross := 0
  net := 0
  overrun := 0
  charge := none
  pauseCount := 0
  pauseReason := none
  saturated := false
  uncompensated := false
  stopCause := none
  authorised := siteTime s
  started := none
  ended := none
  due := false
  collected := false

/-- The machine record takes its hold (R88). -/
def linkMachine (id : HoseId) (tank : TankKind) (hold : Nat) (m : MachineRecord) : MachineRecord :=
  match tank with
  | .fuel => { m with fuelLink := some id, held := hold * Config.litre }
  | .fluid => { m with fluidLink := some id }

def holdMachine (id : HoseId) (t : Terms) (hold : Nat) (s : State) : State :=
  match t.machine with
  | none => s
  | some (slot, tank) =>
    match machineAt slot s with
    | none => s
    | some m => writeMachine slot (linkMachine id tank hold m) s

/-- The account takes its money hold (R44, R88). -/
def holdAccount (slot moneyHold : Nat) (s : State) : State :=
  changeAccount slot
    (fun a => { a with held := a.held + moneyHold, openSessions := a.openSessions + 1 }) s

/-- The compartment takes its commitment; a host gauge in flight is aborted (R63, R77, R88). -/
def holdCompartment (c : CompId) (hold : Nat) (s : State) : State :=
  let k := s.compartments.get c
  abortHostGauge c (compareRestock c (setComp c { k with committed := k.committed + hold * Config.litre } s))

/-- The meter channel is opened and loses its unattributed volume (R89, R149). -/
def openHoseChannel (m : MeterId) (s : State) : State :=
  openChannel m (setChannel m { s.channels.get m with unattributed := 0 } s)

/-- The Hose Controller receives the session (R89): outputs, last source, leak latch (R107), READY. -/
def enterReady (id : HoseId) (x : Session) (s : State) : State :=
  let h := s.hoses.get id
  setHose id
    { h with
      state := .ready
      outputs := { h.outputs with pump := true, manifold := some x.compartment, mainValve := false, staged := 0 }
      lastSource := some x.compartment
      leakLatch := false
      session := some x
      lastNumber := x.number
      readyTimer := some (instant s + h.setup.readyTimeout * 1000)
      resumeTimer := none
      settleTimer := none
      lowFlowRun := 0
      overspeedRun := 0
      stopFaultFound := false
      windowAfterClosing := false } s

/-- The price snapshot of a granted request. -/
def snapshot (t : Terms) (c : Choice) (s : State) : Nat :=
  match accountAt t.account s with
  | none => 0
  | some a => priceFor a c.grade s

/-- A successful authorisation (R88, R89). -/
def openSession (id : HoseId) (t : Terms) (c : Choice) (s : State) : State :=
  let x := newSession id t c (snapshot t c s) s
  enterReady id x
    (openHoseChannel id.meter
      (holdCompartment c.comp c.hold (holdAccount t.account x.moneyHold (holdMachine id t c.hold s))))

/-! ### Referred requests (R90) -/

/-- The hose waits for the host: REFER raised, deadline started afresh. -/
def enterReferred (id : HoseId) (w : Waiting) (s : State) : State :=
  let h := s.hoses.get id
  raise (.refer id)
    (setHose id
      { h with
        state := .referred
        waiting := some w
        referTimer := some (instant s + h.setup.referDeadline * 1000) } s)

/-- A tag-initiated authorisation from IDLE, COMPLETE, LOCKED or OUT_OF_SERVICE (R79 to R81). -/
def authoriseTag (id : HoseId) (tag : Nat) (s : State) : State :=
  match judgeTag id tag s with
  | (.refused r, s) => writeRefusal id (some tag) r s
  | (.referred w, s) => enterReferred id w s
  | (.granted t c, s) => openSession id t c s

/-! ### Commands -/

/-- The figures of an AUTHORISED outcome (R82). -/
def authorisedBytes (id : HoseId) (s : State) : List Byte :=
  match (s.hoses.get id).session with
  | none => []
  | some x =>
    u16 x.number ++ u16 x.hold ++ u8 x.compartment.number ++ u8 (gradeCode x.grade) ++ u32 x.price
      ++ u16 x.setPoint

/-- Outcomes AUTHORISED (0) and REFUSED (1) of AUTHORISE MANUAL and REFER REPLY ACCEPT (R82, R91). -/
def authorised (id : HoseId) (s : State) : Reply := okWith (u8 0 ++ authorisedBytes id s) s

/-- AUTHORISE MANUAL (R82). -/
def doAuthoriseManual (hose number : Nat) (tank : TankKind) (preset : Option Nat) (s : State) : Reply :=
  match hoseOf hose with
  | none => answer .malformed s
  | some id =>
    let st := (s.hoses.get id).state
    if !(inRange 1 999999 number && inRange 1 20000 (preset.getD 1)) then answer .malformed s
    else if st = .referred ∨ openState st = true ∨ provingState st = true then answer .state s
    else
      match judgeManual id number tank preset s with
      | (.refused r, s) =>
        reply (if r = .corrupt then .corrupt else .ok) (u8 1 ++ u8 (reasonCode r)) (writeRefusal id none r s)
      | (.referred _, s) => answer .state s
      | (.granted t c, s) => authorised id (openSession id t c s)

/-- REFER REPLY ACCEPT (R91). -/
def doReferReplyAccept (hose account : Nat) (grades : GradeSet) (limit : Nat) (s : State) : Reply :=
  match hoseOf hose with
  | none => answer .malformed s
  | some id =>
    if !(accountSlotOk account && permittedSet grades && inRange 1 20000 limit) then answer .malformed s
    else if (s.hoses.get id).state ≠ .referred then answer .state s
    else
      match checkAccount account s with
      | (false, s) => answer .accountStopped s
      | (true, s) =>
        match accountAt account s with
        | none => answer .accountStopped s
        | some a =>
          let t := replyTerms ((s.hoses.get id).waiting.map (fun w => w.tag)) account grades limit
          match judgeReply id t a s with
          | .error r => okWith (u8 1 ++ u8 (reasonCode r)) (endReferred id r s)
          | .ok c => authorised id (openSession id t c (endWaiting id s))

/-- REFER REPLY REFUSE (R92). -/
def doReferReplyRefuse (hose : Nat) (s : State) : Reply :=
  match hoseOf hose with
  | none => answer .malformed s
  | some id =>
    if (s.hoses.get id).state ≠ .referred then answer .state s
    else answer .ok (endReferred id .hostRefused s)

/-- The tag a RECHECK resolves: the present tag, or the waiting one where none is present. -/
def recheckTag (id : HoseId) (s : State) : Nat :=
  match (s.readers.get id).present with
  | some p => p.tag
  | none =>
    match (s.hoses.get id).waiting with
    | some w => w.tag
    | none => 0

/-- REFER REPLY RECHECK (R92): outcomes REFERRED (0), AUTHORISED (1) and REFUSED (2). AUTHORISED carries the figures of R82
and REFUSED the reason, as for ACCEPT: the model's choice (notes/assumptions/12.md). -/
def doReferReplyRecheck (hose : Nat) (s : State) : Reply :=
  match hoseOf hose with
  | none => answer .malformed s
  | some id =>
    if (s.hoses.get id).state ≠ .referred then answer .state s
    else
      let tag := recheckTag id s
      match judgeTag id tag s with
      | (.referred w, s) => okWith (u8 0) (enterReferred id w s)
      | (.granted t c, s) =>
        let s := openSession id t c (endWaiting id s)
        okWith (u8 1 ++ authorisedBytes id s) s
      | (.refused r, s) => okWith (u8 2 ++ u8 (reasonCode r)) (writeRefusal id (some tag) r (endWaiting id s))

/-! ### Rows -/

/-- AUTHORISE MANUAL (R82). -/
def execAuthoriseManual (hose number : Nat) (tank : TankKind) (preset : Option Nat) (s : State) :
    Host.Outcome State Fault Refusal :=
  hostRow (.authoriseManual hose number tank preset) (doAuthoriseManual hose number tank preset) s

/-- REFER REPLY ACCEPT (R91). -/
def execReferReplyAccept (hose account : Nat) (grades : GradeSet) (limit : Nat) (s : State) :
    Host.Outcome State Fault Refusal :=
  hostRow (.referReplyAccept hose account grades limit) (doReferReplyAccept hose account grades limit) s

/-- REFER REPLY REFUSE (R92). -/
def execReferReplyRefuse (hose : Nat) (s : State) : Host.Outcome State Fault Refusal :=
  hostRow (.referReplyRefuse hose) (doReferReplyRefuse hose) s

/-- REFER REPLY RECHECK (R92). -/
def execReferReplyRecheck (hose : Nat) (s : State) : Host.Outcome State Fault Refusal :=
  hostRow (.referReplyRecheck hose) (doReferReplyRecheck hose) s

end Sys2Proof.Machine
end

