-- ==== Sys2Proof/Machine/Compartments.lean ====
section
/-! DEFINITION. The Inventory Unit (Chapter 4): the compartment commands, probe sampling and the gauge. -/

namespace Sys2Proof.Machine

/-! ### Probe samples (R72) -/

/-- Condition of a sample; the first three carry the detail values 0, 1 and 2. -/
inductive SampleCondition where
  | levelFault | levelRange | tempFault | good
deriving DecidableEq, Repr

def sampleCondition (r : RawSample) : SampleCondition :=
  if r.statusFault then .levelFault
  else if 32000 < r.level then .levelRange
  else if tempValid r.temperature then .good
  else .tempFault

def sampleConditionCode : SampleCondition → Nat
  | .levelFault => 0
  | .levelRange => 1
  | .tempFault => 2
  | .good => 3

/-! ### Gauge arithmetic (R71, R73, R75) -/

/-- Expansion coefficient of a grade, 0 for no grade (R73, R143). -/
def alphaOf (g : Option Grade) (s : State) : Nat :=
  match g with
  | none => 0
  | some g => (s.store.grades.get g).alpha

/-- Gross volume for a level above `lo`, the point last passed; the flag says the level is above the last
point. -/
def grossFrom (level : Nat) (lo : StrapPoint) : List StrapPoint → Nat × Bool
  | [] => (lo.volume * Config.litre, true)
  | hi :: rest =>
    if level ≤ hi.level then
      (lo.volume * Config.litre
        + ((hi.volume - lo.volume) * Config.litre * (level - lo.level)) / (hi.level - lo.level), false)
    else grossFrom level hi rest

/-- R71: gross volume for a level, and whether the level is above the last point. -/
def grossOf (level : Nat) (points : Option (List StrapPoint)) : Nat × Bool :=
  match points with
  | none => (Config.grossWithoutTable level, false)
  | some [] => (Config.grossWithoutTable level, false)
  | some (p :: rest) => if level ≤ p.level then (p.volume * Config.litre, false) else grossFrom level p rest

/-- Largest less smallest of a list of levels. -/
def spread (levels : List Nat) : Nat := levels.foldl max 0 - levels.foldl min (levels.headD 0)

/-- R75 steps 1, 2 and 4 over the 16 most recent samples. -/
def gaugeFigures (k : Compartment) (recent : List (Nat × Int)) (s : State) : GaugeFigures × Bool :=
  let level := (recent.map Prod.fst).sum / 16
  let temperature := clampTemp (Int.tdiv (recent.map Prod.snd).sum 16)
  let gross := grossOf level k.strap
  let net := gross.1 * vcf (alphaOf k.grade s) temperature / 1000000
  ({ level := level, temperature := temperature, gross := gross.1, net := net, variance := k.book - net }, gross.2)

/-- The end of a gauge reaches whoever started it (R75, R76). -/
def gaugeEnded (c : CompId) (origin : GaugeOrigin) (net : Option Nat) (s : State) : State :=
  match origin with
  | .host => raise (.doneComp c) s
  | .load => loadGaugeEnded net s

/-- The last gauge is written and the gauge in flight clears. -/
def writeGauge (c : CompId) (g : GaugeResult) (s : State) : State :=
  setComp c { s.compartments.get c with lastGauge := some g, gauge := none, outcome := .completed } s

/-- A gauge completes with its 16 most recent samples (R75). -/
def completeGauge (c : CompId) (g : Gauge) (settled : Bool) (s : State) : State :=
  let f := gaugeFigures (s.compartments.get c) g.recent s
  let status : GaugeStatus := if f.2 then .overRange else if settled then .settled else .unsettled
  let s := writeGauge c { time := siteTime s, status := status, figures := some f.1, samples := g.samples } s
  let s := if settled then s
    else report .gauge .unsettled c.number (spread (g.recent.map Prod.fst)) s
  gaugeEnded c g.origin (some f.1.net) s

/-- A gauge takes a sample that is not GOOD and ends (R76). -/
def failGauge (c : CompId) (g : Gauge) (detail : Nat) (s : State) : State :=
  let s := writeGauge c
    { time := siteTime s, status := .probeFault, figures := none, samples := g.samples + 1 } s
  gaugeEnded c g.origin none (report .gauge .probe c.number detail s)

/-- A gauge in flight takes a GOOD sample (R75). -/
def goodSample (c : CompId) (g : Gauge) (r : RawSample) (s : State) : State :=
  let g' := { g with
    samples := g.samples + 1
    recent := ((r.level, clampTemp r.temperature) :: g.recent).take 16 }
  if 16 ≤ g'.samples ∧ spread (g'.recent.map Prod.fst) ≤ 20 then completeGauge c g' true s
  else if 240 ≤ g'.samples then completeGauge c g' false s
  else setComp c { s.compartments.get c with gauge := some g' } s

/-- One compartment's sample is taken (R72). -/
def takeSample (c : CompId) (r : RawSample) (s : State) : State :=
  let s := setComp c { s.compartments.get c with sample := r } s
  match (s.compartments.get c).gauge with
  | none => s
  | some g =>
    match sampleCondition r with
    | .good => goodSample c g r s
    | .levelFault => failGauge c g 0 s
    | .levelRange => failGauge c g 1 s
    | .tempFault => failGauge c g 2 s

/-- The 250 ms sampling of every compartment, 1 to 4 in this order (the model's choice, notes/assumptions/44.md); the end of
a before gauge may open the inlet (R170). -/
def sampleAll (r : ByFour RawSample) (s : State) : State :=
  tryOpenInlet
    (takeSample .four r.four (takeSample .three r.three (takeSample .two r.two (takeSample .one r.one s))))

/-! ### Commands (4.5 to 4.8) -/

/-- R66. -/
def doCompartmentSetup (comp : Nat) (grade : Option Grade) (capacity threshold : Nat) (s : State) : Reply :=
  match fourOf comp with
  | none => answer .malformed s
  | some c =>
    let k := s.compartments.get c
    if !(inRange 100 20000 capacity && decide (threshold ≤ 20000)) then answer .malformed s
    else if grade ≠ k.grade ∧ k.state ≠ .outOfService then answer .state s
    else if capacity ≠ k.capacity ∧ k.state = .loading then answer .state s
    else
      answer .ok
        (compareRestock c (setComp c { k with grade := grade, capacity := capacity, threshold := threshold } s))

/-- R65, R67. -/
def doCompartmentService (comp : Nat) (target : ServiceTarget) (s : State) : Reply :=
  match fourOf comp with
  | none => answer .malformed s
  | some c =>
    let k := s.compartments.get c
    if k.state = .loading then answer .busy s
    else
      match target with
      | .outOfService =>
        if drawnFrom c s then answer .busy s else answer .ok (setComp c { k with state := .outOfService } s)
      | .inService => answer .ok (setComp c { k with state := .inService } s)

/-- The value RESTATE sets, or the status it is refused with (R68). -/
def restateValue (k : Compartment) (source : RestateSource) : Except Status Nat :=
  match source with
  | .host v => .ok v
  | .gauge =>
    match k.lastGauge with
    | none => .error .state
    | some g =>
      match g.figures with
      | none => .error .state
      | some f => .ok f.net

/-- Book, base, loaded total and dispensed total, as RESTATE answers them. -/
def bookBytes (k : Compartment) : List Byte := leSigned 8 k.book ++ u64 k.base ++ u64 k.loaded ++ u64 k.dispensed

/-- A host value out of range is refused before the compartment's state is judged. -/
def restateMalformed (source : RestateSource) : Bool :=
  match source with
  | .host v => !decide (v ≤ Config.volumeMax)
  | .gauge => false

/-- R68. -/
def doRestate (comp : Nat) (source : RestateSource) (s : State) : Reply :=
  match fourOf comp with
  | none => answer .malformed s
  | some c =>
    let k := s.compartments.get c
    if restateMalformed source then answer .malformed s
    else if k.state = .loading then answer .state s
    else
      match restateValue k source with
      | .error st => answer st s
      | .ok v =>
        okWith (bookBytes k)
          (compareRestock c (setComp c { k with book := v, base := v, loaded := 0, dispensed := 0 } s))

/-- The present probe sample as COMPARTMENT READ carries it (R69, R72). -/
def sampleBytes (r : RawSample) : List Byte :=
  u16 r.level ++ leSigned 2 r.temperature ++ u8 (sampleConditionCode (sampleCondition r))

/-- R69. -/
def doCompartmentRead (comp : Nat) (s : State) : Reply :=
  match fourOf comp with
  | none => answer .malformed s
  | some c =>
    let k := s.compartments.get c
    okWith
      (compartmentBytes k ++ leSigned 8 (available k) ++ sampleBytes k.sample ++ match k.gauge with
        | none => []
        | some g => u8 g.samples) s

/-- R70. -/
def doStrapWrite (comp : Nat) (points : List StrapPoint) (s : State) : Reply :=
  match fourOf comp with
  | none => answer .malformed s
  | some c =>
    let k := s.compartments.get c
    if !strapOk points then answer .malformed s
    else if k.state = .loading ∨ k.gauge.isSome then answer .busy s
    else answer .ok (setComp c { k with strap := some points } s)

/-- R70. -/
def doStrapRead (comp : Nat) (s : State) : Reply :=
  match fourOf comp with
  | none => answer .malformed s
  | some c => okWith (optional (counted strapPointBytes) (s.compartments.get c).strap) s

/-- R74. -/
def doGauge (comp : Nat) (s : State) : Reply :=
  match fourOf comp with
  | none => answer .malformed s
  | some c =>
    let k := s.compartments.get c
    if k.strap.isNone then answer .state s
    else if k.gauge.isSome then answer .busy s
    else if k.state = .loading then answer .busy s
    else if drawnFrom c s then answer .busy s
    else answer .accepted (setComp c { k with gauge := some { origin := .host, samples := 0, recent := [] } } s)

/-! ### Rows -/

/-- COMPARTMENT SETUP (R66). -/
def execCompartmentSetup (comp : Nat) (grade : Option Grade) (capacity threshold : Nat) (s : State) :
    Host.Outcome State Fault Refusal :=
  hostRow (.compartmentSetup comp grade capacity threshold) (doCompartmentSetup comp grade capacity threshold) s

/-- COMPARTMENT SERVICE (R67). -/
def execCompartmentService (comp : Nat) (target : ServiceTarget) (s : State) : Host.Outcome State Fault Refusal :=
  hostRow (.compartmentService comp target) (doCompartmentService comp target) s

/-- RESTATE (R68). -/
def execRestate (comp : Nat) (source : RestateSource) (s : State) : Host.Outcome State Fault Refusal :=
  hostRow (.restate comp source) (doRestate comp source) s

/-- COMPARTMENT READ (R69). -/
def execCompartmentRead (comp : Nat) (s : State) : Host.Outcome State Fault Refusal :=
  hostRow (.compartmentRead comp) (doCompartmentRead comp) s

/-- STRAP WRITE (R70). -/
def execStrapWrite (comp : Nat) (points : List StrapPoint) (s : State) : Host.Outcome State Fault Refusal :=
  hostRow (.strapWrite comp points) (doStrapWrite comp points) s

/-- STRAP READ (R70). -/
def execStrapRead (comp : Nat) (s : State) : Host.Outcome State Fault Refusal :=
  hostRow (.strapRead comp) (doStrapRead comp) s

/-- GAUGE (R74). -/
def execGauge (comp : Nat) (s : State) : Host.Outcome State Fault Refusal := hostRow (.gauge comp) (doGauge comp) s

/-- The 250 ms probe sampling (R72, R75, R76). -/
def execProbeSample (r : ByFour RawSample) (s : State) : Host.Outcome State Fault Refusal :=
  fieldRow (sampleAll r) s

end Sys2Proof.Machine
end

