-- ==== Sys2Proof/Machine/Faults.lean ====
section
/-! DEFINITION. The commands of the Fault and Notice Unit (12.1, 12.2). -/

namespace Sys2Proof.Machine

/-! ### Fault banks (R186, R187) -/

/-- FAULT READ (R186): enable set, valid, overflow, and the record while valid. -/
def doFaultRead (bank : Nat) (s : State) : Reply :=
  match bankOf bank with
  | none => answer .malformed s
  | some i =>
    let k := bankGet s.banks i
    okWith
      (u8 k.enable.toNat ++ flagByte k.record.isSome ++ flagByte k.overflow
        ++ match k.record with
          | none => []
          | some f => faultBytes f) s

/-- FAULT CONTROL (R186). -/
def doFaultControl (bank enable : Nat) (s : State) : Reply :=
  match bankOf bank with
  | none => answer .malformed s
  | some i =>
    if enable < 2 ^ (bankKinds i).length then
      answer .ok (setBank i { bankGet s.banks i with enable := BitVec.ofNat 8 enable } s)
    else answer .malformed s

/-- The state a released hose takes: COMPLETE while its session record has collection due, else IDLE. -/
def releasedState (h : Hose) : HoseState :=
  match h.session with
  | none => .idle
  | some x => if x.due then .complete else .idle

/-- The lock of a hose is released when no STOP-severity fault stays valid for it (R187). -/
def releaseHose (id : HoseId) (s : State) : State :=
  let h := s.hoses.get id
  if hoseStopValid id s then s
  else if h.state = .locked then setHose id { h with state := releasedState h } s
  else if h.state = .outOfService ∧ h.returnState = some .locked then
    setHose id { h with returnState := some (releasedState h) } s
  else s

/-- The inlet lock clears when no STOP-severity fault stays valid in its two banks; that may open the inlet
(R170, R175, R187). -/
def releaseInlet (s : State) : State :=
  if stopValid .inlet s || stopValid (.meter .four) s then s
  else tryOpenInlet (setLoads { s.loads with lock := false } s)

/-- What a clear of the bank releases. -/
def releaseBank (i : BankId) (s : State) : State :=
  match i with
  | .hose id => releaseHose id (setHose id { s.hoses.get id with leakLatch := false } s)
  | .meter m =>
    match meterHose m with
    | some id => releaseHose id s
    | none => releaseInlet s
  | .inlet => releaseInlet s
  | .reader _ => s
  | .gauge => s
  | .table => s

/-- The bank is emptied; its enable set stays. -/
def emptyBank (i : BankId) (s : State) : State :=
  setBank i { bankGet s.banks i with overflow := false, record := none } s

/-- FAULT CLEAR (R187): answered with the record removed, or its absence. -/
def doFaultClear (bank : Nat) (s : State) : Reply :=
  match bankOf bank with
  | none => answer .malformed s
  | some i =>
    okWith (optional faultBytes (bankGet s.banks i).record)
      (releaseBank i (dropNotice (.fault i) (emptyBank i s)))

/-! ### Notices (R189) -/

/-- The member of highest priority and lowest source. -/
def nextNotice : List Notice → Option Notice
  | [] => none
  | n :: rest =>
    match nextNotice rest with
    | none => some n
    | some m => if noticeRank m < noticeRank n then some m else some n

/-- NOTICE NEXT (R189): kind, source or its absence, members remaining. -/
def doNoticeNext (s : State) : Reply :=
  match nextNotice s.notices with
  | none => okWith (u8 0 ++ optional u8 none ++ u8 0) s
  | some n =>
    let s := dropNotice n s
    okWith (u8 (noticeKind n) ++ optional u8 (noticeSource n) ++ u8 s.notices.length) s

/-- NOTICE MASK (R189): every bit of the byte is a defined kind. -/
def doNoticeMask (mask : Nat) (s : State) : Reply :=
  if mask < 256 then
    let m := BitVec.ofNat 8 mask
    okWith (u8 mask) { s with noticeMask := m, notices := s.notices.filter (maskEnables m) }
  else answer .malformed s

/-! ### Rows -/

/-- FAULT READ (R186). -/
def execFaultRead (bank : Nat) (s : State) : Host.Outcome State Fault Refusal :=
  hostRow (.faultRead bank) (doFaultRead bank) s

/-- FAULT CONTROL (R186). -/
def execFaultControl (bank enable : Nat) (s : State) : Host.Outcome State Fault Refusal :=
  hostRow (.faultControl bank enable) (doFaultControl bank enable) s

/-- FAULT CLEAR (R187). -/
def execFaultClear (bank : Nat) (s : State) : Host.Outcome State Fault Refusal :=
  hostRow (.faultClear bank) (doFaultClear bank) s

/-- NOTICE NEXT (R189). -/
def execNoticeNext (s : State) : Host.Outcome State Fault Refusal := hostRow .noticeNext doNoticeNext s

/-- NOTICE MASK (R189). -/
def execNoticeMask (mask : Nat) (s : State) : Host.Outcome State Fault Refusal :=
  hostRow (.noticeMask mask) (doNoticeMask mask) s

end Sys2Proof.Machine
end

