-- ==== Sys2Proof/Machine/Hoses.lean ====
section
/-! DEFINITION. The hose points (Chapter 6) apart from their sessions: setup, service, FIELD STATUS, the reel, the
PWM period, and the switches whose events reach no session. -/

namespace Sys2Proof.Machine

/-! ### Setup and service (R96 to R99) -/

/-- The states in which HOSE SETUP is refused BUSY (R97). -/
def hoseEngaged (st : HoseState) : Bool := st == .referred || openState st || provingState st

/-- HOSE SETUP (R97). -/
def doHoseSetup (hose : Nat) (f : HoseSetupFields) (s : State) : Reply :=
  match hoseOf hose with
  | none => answer .malformed s
  | some id =>
    match setupOf id f with
    | none => answer .malformed s
    | some setup =>
      let h := s.hoses.get id
      if hoseEngaged h.state then answer .busy s
      else okWith (setupBytes id { h with setup := setup }) (setHose id { h with setup := setup } s)

/-- The return state, carried while the hose is OUT_OF_SERVICE. -/
def returnStateBytes (h : Hose) : List Byte :=
  if h.state = .outOfService then u8 (hoseStateCode (h.returnState.getD .idle)) else []

/-- The outputs as HOSE READ reports them (R98): the first of each pair of values it names is 0. -/
def outputBytes (o : Outputs) : List Byte :=
  firstOf o.pump ++ u8 (compOrNone o.manifold) ++ firstOf o.mainValve ++ u16 o.staged ++ u16 o.active
    ++ firstOf o.reel

/-- HOSE READ (R98). -/
def doHoseRead (hose : Nat) (s : State) : Reply :=
  match hoseOf hose with
  | none => answer .malformed s
  | some id =>
    let h := s.hoses.get id
    okWith
      (setupBytes id h ++ u8 (hoseStateCode h.state) ++ returnStateBytes h ++ outputBytes h.outputs
        ++ firstOf h.outputs.reel ++ u8 (rewindOutcomeCode h.rewindOutcome) ++ flagByte h.leakLatch) s

/-- The states HOSE SERVICE takes out of service (R99). -/
def atRest : HoseState → Bool
  | .idle => true
  | .complete => true
  | .locked => true
  | _ => false

/-- HOSE SERVICE (R99). -/
def doHoseService (hose : Nat) (target : ServiceTarget) (s : State) : Reply :=
  match hoseOf hose with
  | none => answer .malformed s
  | some id =>
    let h := s.hoses.get id
    if atRest h.state then
      match target with
      | .inService => answer .ok s
      | .outOfService =>
        if h.outputs.reel then answer .busy s
        else answer .ok (setHose id { h with state := .outOfService, returnState := some h.state } s)
    else if h.state = .outOfService then
      match target with
      | .outOfService => answer .ok s
      | .inService =>
        answer .ok (setHose id { h with state := h.returnState.getD .idle, returnState := none } s)
    else
      match target with
      | .outOfService => answer .busy s
      | .inService => answer .ok s

/-! ### FIELD STATUS (R101) -/

/-- The levels and flags of a pulser's two channels, meter by meter. -/
def pairBytes (a b : ByFour Bool) : List Byte :=
  flagByte a.one ++ flagByte b.one ++ flagByte a.two ++ flagByte b.two ++ flagByte a.three ++ flagByte b.three
    ++ flagByte a.four ++ flagByte b.four

/-- A line temperature reading with its validity, coded 0 for valid and 1 for invalid: the model's choice
(notes/assumptions/12.md). -/
def lineTempBytes (t : Int) : List Byte := leSigned 2 t ++ firstOf (tempValid t)

/-- The response of FIELD STATUS, in the order R101 names its parts. The level of DRIVE PERMIT is coded 1 for asserted and 0
for not asserted: the model's choice (notes/assumptions/12.md). -/
def fieldBytes (s : State) : List Byte :=
  levelBytes s.field.levels
    ++ pairBytes (s.channels.map Channel.pinA) (s.channels.map Channel.pinB)
    ++ lineTempBytes s.field.lineTemp.one ++ lineTempBytes s.field.lineTemp.two
    ++ lineTempBytes s.field.lineTemp.three
    ++ flagByte s.drivePermit
    ++ changeBytes s.field.changed ++ pairBytes s.field.pulserAChanged s.field.pulserBChanged
    ++ s.field.tempChanged.toList.flatMap flagByte

/-- FIELD STATUS (R101): the flags are cleared after the response has taken them. -/
def doFieldStatus (s : State) : Reply := okWith (fieldBytes s) (clearChanges s)

/-! ### The reel (R108, R109) -/

/-- The field conditions of REWIND: nozzle on hook, stow switch open, emergency stop released. -/
def rewindAllowed (id : HoseId) (v : Switches) : Bool := !v.offHook.get id && !v.stow.get id && !v.estop

/-- REWIND (R108). -/
def doRewind (hose : Nat) (s : State) : Reply :=
  match hoseOf hose with
  | none => answer .malformed s
  | some id =>
    let h := s.hoses.get id
    if h.outputs.reel then answer .busy s
    else if !atRest h.state then answer .state s
    else if !rewindAllowed id s.field.levels then answer .state s
    else
      answer .accepted
        (setHose id
          { h with
            outputs := { h.outputs with reel := true }
            rewindTimer := some (instant s + h.setup.rewindLimit * 1000) } s)

/-- The rewind timer expires: outcome LIMIT, REEL reported (R109). -/
def rewindExpires (id : HoseId) (s : State) : State :=
  if (s.hoses.get id).outputs.reel then
    report (.hose id) .reel id.number 0 (endRewind id .limit s)
  else s

/-! ### Switch levels -/

def placeOffHook (id : HoseId) (b : Bool) (v : Switches) : Switches := { v with offHook := v.offHook.set id b }
def placeStart (id : HoseId) (b : Bool) (v : Switches) : Switches := { v with start := v.start.set id b }
def placeStow (id : HoseId) (b : Bool) (v : Switches) : Switches := { v with stow := v.stow.set id b }
def placeEstop (b : Bool) (v : Switches) : Switches := { v with estop := b }
def placePark (b : Bool) (v : Switches) : Switches := { v with park := b }
def placeCoupled (b : Bool) (v : Switches) : Switches := { v with coupled := b }
def placeHigh (c : CompId) (b : Bool) (v : Switches) : Switches := { v with high := v.high.set c b }
def placePowerFail (b : Bool) (v : Switches) : Switches := { v with powerFail := b }
def placeSeal (b : Bool) (v : Switches) : Switches := { v with sealClosed := b }

/-! ### PWM (R104) -/

/-- The active duty of a hose takes its staged duty. -/
def takeDuty (h : Hose) : Hose := { h with outputs := { h.outputs with active := h.outputs.staged } }

def pwmPeriod (s : State) : State := { s with hoses := s.hoses.map takeDuty }

/-! ### Rows -/

/-- HOSE SETUP (R97). -/
def execHoseSetup (hose : Nat) (f : HoseSetupFields) (s : State) : Host.Outcome State Fault Refusal :=
  hostRow (.hoseSetup hose f) (doHoseSetup hose f) s

/-- HOSE READ (R98). -/
def execHoseRead (hose : Nat) (s : State) : Host.Outcome State Fault Refusal :=
  hostRow (.hoseRead hose) (doHoseRead hose) s

/-- HOSE SERVICE (R99). -/
def execHoseService (hose : Nat) (target : ServiceTarget) (s : State) : Host.Outcome State Fault Refusal :=
  hostRow (.hoseService hose target) (doHoseService hose target) s

/-- FIELD STATUS (R101). -/
def execFieldStatus (s : State) : Host.Outcome State Fault Refusal := hostRow .fieldStatus doFieldStatus s

/-- REWIND (R108). -/
def execRewind (hose : Nat) (s : State) : Host.Outcome State Fault Refusal := hostRow (.rewind hose) (doRewind hose) s

/-- The stow switch (R109, R110): its closing ends a rewind STOWED. -/
def execStowSwitch (id : HoseId) (closed : Bool) (s : State) : Host.Outcome State Fault Refusal :=
  .next
    (switchStep (s.field.levels.stow.get id) closed (placeStow id)
      (fun s => if closed then endRewind id .stowed s else s) s)

/-- The seal switch (R154). -/
def execSealSwitch (closed : Bool) (s : State) : Host.Outcome State Fault Refusal :=
  .next (switchStep s.field.levels.sealClosed closed placeSeal (fun s => s) s)

/-- The rewind timer expires (R109). -/
def execRewindTimerExpiry (id : HoseId) (s : State) : Host.Outcome State Fault Refusal :=
  fieldRow (fun s => expire (s.hoses.get id).rewindTimer (rewindExpires id) s) s

/-- The start of a PWM period (R104). -/
def execPwmPeriodStart (s : State) : Host.Outcome State Fault Refusal := fieldRow pwmPeriod s

/-- A hose's line temperature reading (R101). -/
def execLineTemperatureValidityChange (id : HoseId) (reading : Int) (s : State) :
    Host.Outcome State Fault Refusal := fieldRow (takeLineTemp id reading) s

end Sys2Proof.Machine
end

