-- ==== Sys2Proof/Machine/Frames.lean ====
section
/-! DEFINITION. Command payloads read (R194): a parser for every host command's fields, in the order its rule names
them, and the table of command bytes. -/

namespace Sys2Proof.Machine

/-- Reads a value from the front of a payload; `none` where the bytes do not fit the form. -/
abbrev Parser (α : Type) := List Byte → Option (α × List Byte)

/-! ### Forms (R194) -/

/-- A number of `k` bytes, little-endian. -/
def num : Nat → Parser Nat
  | 0 => fun b => some (0, b)
  | k + 1 => fun b =>
    match b with
    | [] => none
    | x :: rest =>
      match num k rest with
      | none => none
      | some (n, rest) => some (x.toNat + 256 * n, rest)

/-- A signed figure of 2 bytes, two's complement. -/
def signed16 : Parser Int := fun b => do
  let (n, b) ← num 2 b
  some (if n < 32768 then (n : Int) else (n : Int) - 65536, b)

/-- The first `k` bytes as they stand. -/
def rawBytes : Nat → Parser (List Byte)
  | 0 => fun b => some ([], b)
  | k + 1 => fun b =>
    match b with
    | [] => none
    | x :: rest =>
      match rawBytes k rest with
      | none => none
      | some (xs, rest) => some (x :: xs, rest)

/-- A tag ID: 6 bytes, most significant byte first. -/
def tagField : Parser Nat := fun b => do
  let (xs, b) ← rawBytes 6 b
  some (xs.foldl (fun n x => n * 256 + x.toNat) 0, b)

/-- A named value, by its position in a list of values. -/
def named {α : Type} (values : List α) : Parser α := fun b => do
  let (n, b) ← num 1 b
  let v ← values[n]?
  some (v, b)

def flagField : Parser Bool := named [false, true]
def gradeField : Parser Grade := named [.g1, .g2, .g3]
def compGradeField : Parser (Option Grade) := named [some .g1, some .g2, some .g3, none]
def tankField : Parser TankKind := named [.fuel, .fluid]
def policyField : Parser Policy := named [.refuse, .refer, .allow]
def serviceField : Parser ServiceTarget := named [.inService, .outOfService]

/-- A set of grades: G1, G2 and G3 in the three lowest bits. -/
def gradeSetField : Parser GradeSet := fun b => do
  let (n, b) ← num 1 b
  if n < 8 then some (⟨n.testBit 0, n.testBit 1, n.testBit 2⟩, b) else none

/-- An optional field behind its presence byte. -/
def optField {α : Type} (p : Parser α) : Parser (Option α) := fun b => do
  let (present, b) ← flagField b
  if present then
    let (v, b) ← p b
    some (some v, b)
  else some (none, b)

/-- `k` items one after another. -/
def repeatField {α : Type} (p : Parser α) : Nat → Parser (List α)
  | 0 => fun b => some ([], b)
  | k + 1 => fun b => do
    let (v, b) ← p b
    let (vs, b) ← repeatField p k b
    some (v :: vs, b)

/-- A list behind its count byte. -/
def listField {α : Type} (p : Parser α) : Parser (List α) := fun b => do
  let (k, b) ← num 1 b
  repeatField p k b

/-! ### Field sets -/

def tankRecord : Parser Tank := fun b => do
  let (tag, b) ← tagField b
  let (grades, b) ← gradeSetField b
  let (capacity, b) ← num 2 b
  let (ceiling, b) ← optField (num 2) b
  some ({ tag := tag, grades := grades, capacity := capacity, ceiling := ceiling }, b)

/-- R11, R12: number, account, manual permitted, day allowance, tanks. -/
def machineFields : Parser MachineFields := fun b => do
  let (number, b) ← num 4 b
  let (account, b) ← num 1 b
  let (manual, b) ← flagField b
  let (allowance, b) ← num 2 b
  let (fuel, b) ← optField tankRecord b
  let (fluid, b) ← optField tankRecord b
  some
    ({ number := number, account := account, manualPermitted := manual, allowance := allowance, fuel := fuel
       fluid := fluid }, b)

def rangeEntry : Parser RangeEntry := fun b => do
  let (enabled, b) ← flagField b
  let (base, b) ← num 8 b
  let (mask, b) ← num 8 b
  let (policy, b) ← policyField b
  let (account, b) ← num 1 b
  let (grades, b) ← gradeSetField b
  let (limit, b) ← num 2 b
  some
    ({ enabled := enabled, base := base, mask := mask, policy := policy, account := account, grades := grades
       limit := limit }, b)

def periodFigures : Parser PeriodFigures := fun b => do
  let (g1, b) ← num 8 b
  let (g2, b) ← num 8 b
  let (g3, b) ← num 8 b
  let (charges, b) ← num 8 b
  let (fills, b) ← num 2 b
  some ({ net := ⟨g1, g2, g3⟩, charges := charges, fills := fills }, b)

def strapPoint : Parser StrapPoint := fun b => do
  let (level, b) ← num 2 b
  let (volume, b) ← num 2 b
  some ({ level := level, volume := volume }, b)

def linPoint : Parser LinPoint := fun b => do
  let (flow, b) ← num 2 b
  let (factor, b) ← num 4 b
  some ({ flow := flow, factor := factor }, b)

/-- R97. -/
def hoseSetupFields : Parser HoseSetupFields := fun b => do
  let (preference, b) ← listField (num 1) b
  let (maxFlow, b) ← num 2 b
  let (minFill, b) ← num 2 b
  let (slowDown, b) ← num 1 b
  let (slowFlow, b) ← num 1 b
  let (lead, b) ← num 1 b
  let (startDuty, b) ← num 2 b
  let (readyTimeout, b) ← num 2 b
  let (resumeWindow, b) ← num 2 b
  let (noFlowWindows, b) ← num 1 b
  let (noFlowThreshold, b) ← num 1 b
  let (stopSettle, b) ← num 1 b
  let (creepLimit, b) ← num 1 b
  let (rewindLimit, b) ← num 1 b
  let (referDeadline, b) ← num 1 b
  let (collectionRequired, b) ← flagField b
  some
    ({ preference := preference, maxFlow := maxFlow, minFill := minFill, slowDown := slowDown
       slowFlow := slowFlow, lead := lead, startDuty := startDuty, readyTimeout := readyTimeout
       resumeWindow := resumeWindow, noFlowWindows := noFlowWindows, noFlowThreshold := noFlowThreshold
       stopSettle := stopSettle, creepLimit := creepLimit, rewindLimit := rewindLimit
       referDeadline := referDeadline, collectionRequired := collectionRequired }, b)

/-! ### Commands with more than one form -/

def takes0 (i : Instr) : Parser Instr := fun b => some (i, b)

/-- A command of one number of `k` bytes. -/
def takes1 (k : Nat) (f : Nat → Instr) : Parser Instr := fun b => do
  let (n, b) ← num k b
  some (f n, b)

/-- A command of two numbers. -/
def takes2 (j k : Nat) (f : Nat → Nat → Instr) : Parser Instr := fun b => do
  let (m, b) ← num j b
  let (n, b) ← num k b
  some (f m n, b)

/-- A command of three numbers. -/
def takes3 (i j k : Nat) (f : Nat → Nat → Nat → Instr) : Parser Instr := fun b => do
  let (l, b) ← num i b
  let (m, b) ← num j b
  let (n, b) ← num k b
  some (f l m n, b)

/-- A command of four numbers. -/
def takes4 (h i j k : Nat) (f : Nat → Nat → Nat → Nat → Instr) : Parser Instr := fun b => do
  let (l, b) ← num h b
  let (m, b) ← num i b
  let (n, b) ← num j b
  let (o, b) ← num k b
  some (f l m n o, b)

/-- R12, R14. The form selector follows the slot: the model's choice (notes/assumptions/43.md). -/
def machineAmend : Parser Instr := fun b => do
  let (slot, b) ← num 2 b
  let (rewrite, b) ← flagField b
  let (f, b) ← machineFields b
  if rewrite then
    let (used, b) ← num 8 b
    let (overrun, b) ← num 8 b
    let (fills, b) ← num 2 b
    some (.machineAmendRewrite slot f used overrun fills, b)
  else some (.machineAmendChange slot f, b)

def machineFind : Parser Instr := fun b => do
  let (byNumber, b) ← flagField b
  if byNumber then
    let (n, b) ← num 4 b
    some (.machineFind (.number n), b)
  else
    let (t, b) ← tagField b
    some (.machineFind (.tag t), b)

/-- R48, R49. The form selector follows the slot: the model's choice (notes/assumptions/43.md). -/
def accountAmend : Parser Instr := fun b => do
  let (slot, b) ← num 1 b
  let (rewrite, b) ← flagField b
  let (number, b) ← num 2 b
  let (tier, b) ← num 1 b
  let (limit, b) ← num 8 b
  if rewrite then
    let (balance, b) ← num 8 b
    let (period, b) ← num 2 b
    let (current, b) ← periodFigures b
    some (.accountAmendRewrite slot number tier limit balance period current, b)
  else some (.accountAmendChange slot number tier limit, b)

def accountRead : Parser Instr := fun b => do
  let (byNumber, b) ← flagField b
  if byNumber then
    let (n, b) ← num 2 b
    some (.accountRead (.number n), b)
  else
    let (n, b) ← num 1 b
    some (.accountRead (.slot n), b)

def restateCommand : Parser Instr := fun b => do
  let (comp, b) ← num 1 b
  let (fromGauge, b) ← flagField b
  if fromGauge then some (.restate comp .gauge, b)
  else
    let (v, b) ← num 8 b
    some (.restate comp (.host v), b)

def referReply : Parser Instr := fun b => do
  let (hose, b) ← num 1 b
  let (decision, b) ← num 1 b
  match decision with
  | 0 =>
    let (account, b) ← num 1 b
    let (grades, b) ← gradeSetField b
    let (limit, b) ← num 2 b
    some (.referReplyAccept hose account grades limit, b)
  | 1 => some (.referReplyRefuse hose, b)
  | 2 => some (.referReplyRecheck hose, b)
  | _ => none

/-! ### The other commands whose fields are not all numbers -/

def machineInstall : Parser Instr := fun b => do
  let (f, b) ← machineFields b
  some (.machineInstall f, b)

def tagQuery : Parser Instr := fun b => do
  let (t, b) ← tagField b
  some (.tagQuery t, b)

def rangeWrite : Parser Instr := fun b => do
  let (entry, b) ← num 1 b
  let (e, b) ← rangeEntry b
  some (.rangeWrite entry e, b)

def defaultPolicySet : Parser Instr := fun b => do
  let (p, b) ← policyField b
  some (.defaultPolicySet p, b)

def readerStatus : Parser Instr := fun b => do
  let (port, b) ← num 1 b
  let (clear, b) ← flagField b
  some (.readerStatus port clear, b)

def priceWrite : Parser Instr := fun b => do
  let (tier, b) ← num 1 b
  let (grade, b) ← gradeField b
  let (price, b) ← num 4 b
  some (.priceWrite tier grade price, b)

def compartmentSetup : Parser Instr := fun b => do
  let (comp, b) ← num 1 b
  let (grade, b) ← compGradeField b
  let (capacity, b) ← num 2 b
  let (threshold, b) ← num 2 b
  some (.compartmentSetup comp grade capacity threshold, b)

def compartmentService : Parser Instr := fun b => do
  let (comp, b) ← num 1 b
  let (target, b) ← serviceField b
  some (.compartmentService comp target, b)

def strapWrite : Parser Instr := fun b => do
  let (comp, b) ← num 1 b
  let (points, b) ← listField strapPoint b
  some (.strapWrite comp points, b)

def authoriseManual : Parser Instr := fun b => do
  let (hose, b) ← num 1 b
  let (number, b) ← num 4 b
  let (tank, b) ← tankField b
  let (preset, b) ← optField (num 2) b
  some (.authoriseManual hose number tank preset, b)

def hoseSetup : Parser Instr := fun b => do
  let (hose, b) ← num 1 b
  let (f, b) ← hoseSetupFields b
  some (.hoseSetup hose f, b)

def hoseService : Parser Instr := fun b => do
  let (hose, b) ← num 1 b
  let (target, b) ← serviceField b
  some (.hoseService hose target, b)

def metrologyWrite : Parser Instr := fun b => do
  let (meter, b) ← num 1 b
  let (pulseVolume, b) ← num 8 b
  let (points, b) ← listField linPoint b
  some (.metrologyWrite meter pulseVolume points, b)

def gradeCoefficientWrite : Parser Instr := fun b => do
  let (grade, b) ← gradeField b
  let (alpha, b) ← num 2 b
  let (fallback, b) ← signed16 b
  some (.gradeCoefficientWrite grade alpha fallback, b)

def loadCreate : Parser Instr := fun b => do
  let (comp, b) ← num 1 b
  let (grade, b) ← gradeField b
  let (expected, b) ← num 2 b
  let (docket, b) ← rawBytes 16 b
  some (.loadCreate comp grade expected docket, b)

/-! ### The table of command bytes -/

/-- The payload parser of each command byte; `none` for a byte that names no command. -/
def payloadParser (code : Nat) : Option (Parser Instr) :=
  match code with
  | 0x01 => some (takes0 .restart)
  | 0x02 => some (takes0 .identify)
  | 0x21 => some machineInstall
  | 0x22 => some machineAmend
  | 0x23 => some (takes1 2 .machineRead)
  | 0x24 => some machineFind
  | 0x25 => some (takes1 2 .machineSuspend)
  | 0x26 => some (takes1 2 .machineReinstate)
  | 0x27 => some (takes1 2 .machineRetire)
  | 0x28 => some tagQuery
  | 0x29 => some rangeWrite
  | 0x2A => some (takes1 1 .rangeRead)
  | 0x2B => some defaultPolicySet
  | 0x30 => some (takes4 1 2 1 2 .readerSetup)
  | 0x31 => some readerStatus
  | 0x40 => some (takes3 2 1 8 .accountOpen)
  | 0x41 => some accountAmend
  | 0x42 => some accountRead
  | 0x43 => some (takes1 1 .accountStop)
  | 0x44 => some (takes1 1 .accountResume)
  | 0x45 => some (takes1 1 .accountRetire)
  | 0x46 => some (takes2 1 8 .settle)
  | 0x47 => some (takes1 1 .periodClose)
  | 0x48 => some (takes1 1 .statementRead)
  | 0x49 => some (takes2 1 2 .statementRelease)
  | 0x4A => some priceWrite
  | 0x4B => some (takes0 .priceRead)
  | 0x50 => some compartmentSetup
  | 0x51 => some (takes1 1 .compartmentRead)
  | 0x52 => some compartmentService
  | 0x53 => some strapWrite
  | 0x54 => some (takes1 1 .strapRead)
  | 0x55 => some restateCommand
  | 0x56 => some (takes1 1 .gauge)
  | 0x60 => some authoriseManual
  | 0x61 => some referReply
  | 0x70 => some hoseSetup
  | 0x71 => some (takes1 1 .hoseRead)
  | 0x72 => some hoseService
  | 0x73 => some (takes0 .fieldStatus)
  | 0x74 => some (takes1 1 .rewind)
  | 0x75 => some (takes1 1 .hoseStop)
  | 0x76 => some (takes2 1 2 .collect)
  | 0x77 => some (takes1 1 .sessionRead)
  | 0x80 => some (takes1 1 .meterRead)
  | 0x90 => some metrologyWrite
  | 0x91 => some gradeCoefficientWrite
  | 0x92 => some (takes1 1 .metrologyRead)
  | 0x93 => some (takes3 1 2 2 .proveStart)
  | 0x94 => some (takes2 1 4 .proveResult)
  | 0x95 => some (takes1 1 .proveAbort)
  | 0x96 => some (takes1 1 .proveRead)
  | 0xA0 => some loadCreate
  | 0xA1 => some (takes1 1 .loadArm)
  | 0xA2 => some (takes1 1 .loadCancel)
  | 0xA3 => some (takes1 1 .loadAbort)
  | 0xA4 => some (takes1 1 .loadRead)
  | 0xA5 => some (takes1 1 .loadRetire)
  | 0xA6 => some (takes4 2 1 2 1 .inletSetup)
  | 0xA7 => some (takes0 .inletRead)
  | 0xB0 => some (takes1 2 .windowSet)
  | 0xB1 => some (takes1 4 .clockSet)
  | 0xB2 => some (takes1 4 .rolloverSet)
  | 0xB3 => some (takes0 .clockRead)
  | 0xC0 => some (takes1 1 .faultRead)
  | 0xC1 => some (takes2 1 1 .faultControl)
  | 0xC2 => some (takes1 1 .faultClear)
  | 0xC8 => some (takes0 .noticeNext)
  | 0xC9 => some (takes1 1 .noticeMask)
  | _ => none

/-- What a command byte and its payload call for: INVALID for a byte that names no command, MALFORMED for a payload
that does not fit the command's fields, the command otherwise (R191, R194). -/
def todoOf (code : Byte) (payload : List Byte) : Todo :=
  match payloadParser code.toNat with
  | none => .reply .invalid
  | some p =>
    match p payload with
    | none => .reply .malformed
    | some (i, []) => .run i
    | some (_, _ :: _) => .reply .malformed

end Sys2Proof.Machine
end

