-- ==== Sys2Proof/Machine/Link.lean ====
section
/-! DEFINITION. The SPI link (12.3, 12.5): frames checked, taken and shifted out, the link reset, and IDENTIFY. -/

namespace Sys2Proof.Machine

/-! ### Command frames (R191) -/

/-- The check field of a frame is the CRC-16 over the bytes before it, low byte first. -/
def checkAgrees (body check : List Byte) : Bool := check == u16 (crc16 body).toNat

/-- What a taken frame calls for: its length and check first, then its command byte and payload. -/
def frameTodo (frame : List Byte) : Todo :=
  match frame with
  | code :: _ :: low :: high :: rest =>
    let length := low.toNat + 256 * high.toNat
    if length ≤ 512 ∧ rest.length = length + 2
        ∧ checkAgrees (frame.take (4 + length)) (frame.drop (4 + length)) = true then
      todoOf code (rest.take length)
    else .reply .checkFailed
  | _ => .reply .checkFailed

/-- A frame as taken: bytes that did not arrive are echoed as 0x00. -/
def takenFrame (frame : List Byte) : Taken where
  code := frame.getD 0 0
  sequence := frame.getD 1 0
  todo := frameTodo frame
  wanted := true

/-- The end of a COMMAND transaction (R190, R192). `busy` says a store write is in progress. -/
def commandEnds (frame : List Byte) (busy : Bool) (p : Port) : Port :=
  let p := { p with shifted := frame.map (fun _ => 0) }
  match p.link with
  | .idle =>
    if p.executing.isSome || busy then { p with link := .executing, waiting := some (takenFrame frame) }
    else startTaken (takenFrame frame) p
  | .executing => { p with overrun := true }
  | .result => { p with overrun := true }

/-! ### Response frames (12.5) -/

def responseBytes (code sequence : Byte) (status : Status) (overrun pending : Bool) (payload : List Byte) :
    List Byte :=
  let body :=
    [code, sequence] ++ u8 (statusCode status)
      ++ u8 ((if overrun then 1 else 0) + (if pending then 2 else 0)) ++ u16 payload.length ++ payload
  body ++ u16 (crc16 body).toNat

/-- The sequence byte of a NOT_READY frame: of the command being executed, or 0 in IDLE. -/
def notReadySequence (p : Port) : Byte :=
  match p.link with
  | .idle => 0
  | .result => 0
  | .executing =>
    match p.waiting, p.executing with
    | some w, _ => w.sequence
    | none, some t => t.sequence
    | none, none => 0

/-- The end of a READ transaction in which the host clocked `count` bytes; `pending` says the notice set is not
empty. Bytes clocked after the end of the frame are not recorded: the model's choice (notes/assumptions/17.md). -/
def readEnds (count : Nat) (pending : Bool) (p : Port) : Port :=
  match p.link, p.response with
  | .result, some r =>
    let frame := responseBytes r.code r.sequence r.answer.status p.overrun pending r.answer.payload
    if frame.length ≤ count then
      { p with shifted := frame, link := .idle, response := none, overrun := false }
    else { p with shifted := frame.take count }
  | _, _ =>
    { p with
      shifted := (responseBytes 0 (notReadySequence p) .notReady p.overrun pending []).take count }

/-- The LINK RESET pin (R192). -/
def linkEnds (p : Port) : Port :=
  { p with
    link := .idle
    response := none
    overrun := false
    waiting := none
    executing := p.executing.map (fun t => { t with wanted := false }) }

/-- IDENTIFY (R193): part code, revision, payload limits. -/
def doIdentify (s : State) : Reply := okWith (u16 6140 ++ u8 1 ++ u16 512 ++ u16 1024) s

/-! ### Rows -/

/-- An event of the link acts on the Command Port alone (R192); only a running controller takes it. -/
def portRow (act : State → Port → Port) (s : State) : Host.Outcome State Fault Refusal :=
  match s.supply.power with
  | .running => .next (setPort (act s s.port) s)
  | .held => .next s
  | .unpowered => .next s

/-- The end of an SPI transaction that opened as a COMMAND transaction; one opened by another byte is ignored
(R190). -/
def execCommandTransaction (opening : Byte) (frame : List Byte) (s : State) : Host.Outcome State Fault Refusal :=
  portRow (fun s p => if opening.toNat = 1 then commandEnds frame s.store.write.isSome p else p) s

/-- The end of an SPI transaction that opened as a READ transaction (R190). -/
def execReadTransaction (opening : Byte) (count : Nat) (s : State) : Host.Outcome State Fault Refusal :=
  portRow (fun s p => if opening.toNat = 2 then readEnds count (attn s) p else p) s

/-- The LINK RESET pin (R192). -/
def execLinkReset (s : State) : Host.Outcome State Fault Refusal := portRow (fun _ p => linkEnds p) s

/-- IDENTIFY (R193). -/
def execIdentify (s : State) : Host.Outcome State Fault Refusal := hostRow .identify doIdentify s

end Sys2Proof.Machine
end

