-- ==== Sys2Proof/Machine/Loads.lean ====
section
/-! DEFINITION. The Load Controller (Chapter 10): load orders, inlet setup, the inlet's switches and timers. -/

namespace Sys2Proof.Machine

/-! ### Orders (R168, R169, R176) -/

/-- The order LOAD CREATE places. -/
def newOrder (c : CompId) (grade : Grade) (expected : Nat) (docket : List Byte) (time : Nat) : LoadOrder where
  state := .planned
  compartment := c
  grade := grade
  expected := expected
  docket := docket
  gaugeBefore := none
  gross := 0
  net := 0
  gaugeAfter := none
  docketVariance := none
  gaugeVariance := none
  endCause := none
  created := time
  armed := none
  flowStart := none
  flowEnd := none
  completed := none

/-- LOAD CREATE (R168). -/
def doLoadCreate (comp : Nat) (grade : Grade) (expected : Nat) (docket : List Byte) (s : State) : Reply :=
  match fourOf comp with
  | none => answer .malformed s
  | some c =>
    if !(inRange 1 20000 expected && docketOk docket) then answer .malformed s
    else
      match lowestFree s.loads.orders Config.loadSlots with
      | none => answer .tableFull s
      | some slot => okWith (u8 slot) (setOrder slot (newOrder c grade expected docket (siteTime s)) s)

/-- The before gauge starts where there is a strapping table, and counts as ended where there is none (R170). -/
def startBeforeGauge (c : CompId) (s : State) : State :=
  match (s.compartments.get c).strap with
  | none => setLoads { s.loads with beforeEnded := true } s
  | some _ => startLoadGauge c s

/-- A compartment of grade NONE takes the order's grade; the compartment becomes LOADING (R65, R169). -/
def loadCompartment (o : LoadOrder) (s : State) : State :=
  let k := s.compartments.get o.compartment
  setComp o.compartment { k with grade := some (k.grade.getD o.grade), state := .loading } s

/-- The order becomes ARMED, the ullage limit is fixed, the arm timer starts. -/
def armOrder (slot : Nat) (o : LoadOrder) (s : State) : State :=
  setLoads
    { s.loads with
      orders := tableSet s.loads.orders slot { o with state := .armed, armed := some (siteTime s) }
      ullageLimit := s.loads.setup.ullage * (s.compartments.get o.compartment).capacity * 10000
      beforeEnded := false
      armTimer := some (instant s + s.loads.setup.arm * 60000)
      idleTimer := none
      settleTimer := none
      watch := none } s

/-- Checks 6 to 8 of LOAD ARM. -/
def armable (o : LoadOrder) (s : State) : Bool :=
  ((s.compartments.get o.compartment).grade.getD o.grade == o.grade) && calibrated .four s && !s.loads.lock

/-- LOAD ARM (R169). -/
def doLoadArm (slot : Nat) (s : State) : Reply :=
  if !loadSlotOk slot then answer .malformed s
  else
    match tableGet s.loads.orders slot with
    | none => answer .noRecord s
    | some o =>
      if o.state ≠ .planned then answer .state s
      else if (activeOrder s).isSome then answer .busy s
      else if (s.compartments.get o.compartment).state ≠ .inService then answer .busy s
      else if drawnFrom o.compartment s then answer .busy s
      else if !armable o s then answer .state s
      else
        answer .ok
          (tryOpenInlet (startBeforeGauge o.compartment (armOrder slot o (loadCompartment o s))))

/-- An ARMED or LOADING order ends CANCELLED: the inlet is closed, its compartment returns to IN_SERVICE, a load
gauge in flight runs on as a host gauge (R171, R176). -/
def cancelOrder (slot : Nat) (o : LoadOrder) (cause : EndCause) (s : State) : State :=
  handGaugeToHost o.compartment
    (releaseCompartment o.compartment
      (setLoads
        { s.loads with
          orders := tableSet s.loads.orders slot
            { o with
              state := .cancelled
              endCause := some cause
              flowEnd := if o.state = .loading then some (siteTime s) else o.flowEnd
              completed := some (siteTime s) }
          valveOpen := false
          armTimer := none
          idleTimer := none } s))

/-- LOAD CANCEL (R176). -/
def doLoadCancel (slot : Nat) (s : State) : Reply :=
  if !loadSlotOk slot then answer .malformed s
  else
    match tableGet s.loads.orders slot with
    | none => answer .noRecord s
    | some o =>
      match o.state with
      | .planned =>
        answer .ok
          (setOrder slot
            { o with state := .cancelled, endCause := some .hostAbort, completed := some (siteTime s) } s)
      | .armed => answer .ok (cancelOrder slot o .hostAbort s)
      | _ => answer .state s

/-- LOAD ABORT (R176). -/
def doLoadAbort (slot : Nat) (s : State) : Reply :=
  if !loadSlotOk slot then answer .malformed s
  else
    match tableGet s.loads.orders slot with
    | none => answer .noRecord s
    | some o => if o.state = .loading then answer .ok (closeInlet slot o .hostAbort s) else answer .state s

/-- A gauge of the order is in flight. -/
def orderGauging (o : LoadOrder) (s : State) : Bool :=
  match (s.compartments.get o.compartment).gauge with
  | none => false
  | some g => g.origin == .load

/-- Time left in ms, saturating at 2^32 − 1, on whichever of the order's timers runs: the arm timer until flow
start, then the idle timer, then the settle timer. -/
def orderTimer (s : State) : Option Nat :=
  (s.loads.armTimer.or (s.loads.idleTimer.or s.loads.settleTimer)).map (fun d => min (d - instant s) 4294967295)

/-- LOAD READ (R176). -/
def doLoadRead (slot : Nat) (s : State) : Reply :=
  if !loadSlotOk slot then answer .malformed s
  else
    match tableGet s.loads.orders slot with
    | none => answer .noRecord s
    | some o =>
      okWith
        (orderBytes o
          ++ (if activeState o.state then optional u32 (orderTimer s) ++ flagByte (orderGauging o s) else [])) s

/-- LOAD RETIRE (R176). -/
def doLoadRetire (slot : Nat) (s : State) : Reply :=
  if !loadSlotOk slot then answer .malformed s
  else
    match tableGet s.loads.orders slot with
    | none => answer .noRecord s
    | some o =>
      if o.state = .complete ∨ o.state = .cancelled then
        okWith (orderBytes o) (setLoads { s.loads with orders := tableErase s.loads.orders slot } s)
      else answer .state s

/-! ### Inlet setup (R167) -/

/-- INLET SETUP (R167). -/
def doInletSetup (idle arm settle ullage : Nat) (s : State) : Reply :=
  if !inletSetupOk idle arm settle ullage then answer .malformed s
  else if (activeOrder s).isSome then answer .busy s
  else
    answer .ok
      (setLoads { s.loads with setup := { idle := idle, arm := arm, settle := settle, ullage := ullage } } s)

/-- INLET READ (R167): valve open or closed, coupling, high-level switches, lock, active slot. -/
def doInletRead (s : State) : Reply :=
  okWith
    (u16 s.loads.setup.idle ++ u8 s.loads.setup.arm ++ u16 s.loads.setup.settle ++ u8 s.loads.setup.ullage
      ++ firstOf s.loads.valveOpen ++ firstOf s.field.levels.coupled
      ++ s.field.levels.high.toList.flatMap flagByte ++ flagByte s.loads.lock
      ++ optional (fun p : Nat × LoadOrder => u8 p.1) (activeOrder s)) s

/-! ### Switches and timers (R171, R173, R174) -/

/-- The high-level switch of a compartment goes HIGH (R173). The window in progress falls to nobody, whatever its volume
(R150; notes/assumptions/46.md). -/
def highLevel (c : CompId) (s : State) : State :=
  match loadingOrder s with
  | none => s
  | some (slot, o) =>
    if o.compartment = c then
      report .inlet .highLevel c.number ((o.net / Config.litre : Nat) : Int) (closeInlet slot o .highLevel s)
    else s

/-- The arm timer expires before flow start (R171). -/
def armExpires (s : State) : State :=
  match activeOrder s with
  | none => s
  | some (slot, o) => raise (.load slot) (cancelOrder slot o .armTimeout s)

/-- The settle timer of a load expires: the after gauge starts, or counts as ended without a net (R174). -/
def loadSettleExpires (s : State) : State :=
  match activeOrder s with
  | none => s
  | some (slot, o) =>
    let s := setLoads { s.loads with settleTimer := none } s
    match (s.compartments.get o.compartment).strap with
    | none => completeOrder slot o none s
    | some _ => startLoadGauge o.compartment s

/-! ### Rows -/

/-- LOAD CREATE (R168). -/
def execLoadCreate (comp : Nat) (grade : Grade) (expected : Nat) (docket : List Byte) (s : State) :
    Host.Outcome State Fault Refusal :=
  hostRow (.loadCreate comp grade expected docket) (doLoadCreate comp grade expected docket) s

/-- LOAD ARM (R169). -/
def execLoadArm (slot : Nat) (s : State) : Host.Outcome State Fault Refusal :=
  hostRow (.loadArm slot) (doLoadArm slot) s

/-- LOAD CANCEL (R176). -/
def execLoadCancel (slot : Nat) (s : State) : Host.Outcome State Fault Refusal :=
  hostRow (.loadCancel slot) (doLoadCancel slot) s

/-- LOAD ABORT (R176). -/
def execLoadAbort (slot : Nat) (s : State) : Host.Outcome State Fault Refusal :=
  hostRow (.loadAbort slot) (doLoadAbort slot) s

/-- LOAD READ (R176). -/
def execLoadRead (slot : Nat) (s : State) : Host.Outcome State Fault Refusal :=
  hostRow (.loadRead slot) (doLoadRead slot) s

/-- LOAD RETIRE (R176). -/
def execLoadRetire (slot : Nat) (s : State) : Host.Outcome State Fault Refusal :=
  hostRow (.loadRetire slot) (doLoadRetire slot) s

/-- INLET SETUP (R167). -/
def execInletSetup (idle arm settle ullage : Nat) (s : State) : Host.Outcome State Fault Refusal :=
  hostRow (.inletSetup idle arm settle ullage) (doInletSetup idle arm settle ullage) s

/-- INLET READ (R167). -/
def execInletRead (s : State) : Host.Outcome State Fault Refusal := hostRow .inletRead doInletRead s

/-- The inlet coupling (R170, R173). -/
def execInletCoupling (coupled : Bool) (s : State) : Host.Outcome State Fault Refusal :=
  .next
    (switchStep s.field.levels.coupled coupled placeCoupled
      (fun s => if coupled then tryOpenInlet s else endLoading .uncoupled s) s)

/-- A compartment's high-level switch (R170, R173). -/
def execHighLevelSwitch (c : CompId) (high : Bool) (s : State) : Host.Outcome State Fault Refusal :=
  .next
    (switchStep (s.field.levels.high.get c) high (placeHigh c)
      (fun s => if high then highLevel c s else tryOpenInlet s) s)

/-- The arm timer expires (R171). -/
def execArmTimerExpiry (s : State) : Host.Outcome State Fault Refusal :=
  fieldRow (fun s => expire s.loads.armTimer armExpires s) s

/-- The inlet idle timer expires (R173). -/
def execInletIdleTimerExpiry (s : State) : Host.Outcome State Fault Refusal :=
  fieldRow (fun s => expire s.loads.idleTimer (endLoading .depotStopped) s) s

/-- The load settle timer expires (R174). -/
def execLoadSettleTimerExpiry (s : State) : Host.Outcome State Fault Refusal :=
  fieldRow (fun s => expire s.loads.settleTimer loadSettleExpires s) s

end Sys2Proof.Machine
end

