-- ==== Sys2Proof/Machine/Sessions.lean ====
section
/-! DEFINITION. Dispensing sessions (Chapter 7) and the events that reach them: nozzle, start input, emergency stop,
park brake, tag events and session timers; with them what the same events do to requests and proving runs. -/

namespace Sys2Proof.Machine

/-! ### Starting and pausing (R115, R117, R118) -/

/-- hold × 10^6 less the delivered net, in µL. -/
def remaining (x : Session) : Int := ((x.hold * Config.litre : Nat) : Int) - x.net

/-- The state a start or a resume chooses; `none` is STOPPING with HOLD_REACHED. -/
def startState (setup : HoseSetup) (x : Session) : Option HoseState :=
  if remaining x ≤ ((setup.lead * 100000 : Nat) : Int) then none
  else if remaining x ≤ ((setup.slowDown * Config.litre : Nat) : Int) then some .slowing
  else some .flowing

/-- The session starts from READY or resumes from PAUSED. -/
def startDelivery (id : HoseId) (s : State) : State :=
  let h := s.hoses.get id
  match h.session with
  | none => s
  | some x =>
    match startState h.setup x with
    | none => enterStopping id .holdReached false s
    | some st =>
      setHose id
        { stopSessionTimers h with
          state := st
          outputs := openValve h.setup.startDuty h.outputs
          session := some { x with started := some (x.started.getD (siteTime s)) }
          lowFlowRun := 0
          overspeedRun := 0 } s

/-- Pause count rises, stopping at 255. -/
def countPause (x : Session) : Session := { x with pauseCount := satAdd 255 x.pauseCount 1 }

/-- Entry to PAUSED (R117). -/
def pause (id : HoseId) (reason : PauseReason) (s : State) : State :=
  let h := s.hoses.get id
  setHose id
    { stopSessionTimers h with
      state := .paused
      outputs := closeValve h.outputs
      session := h.session.map (fun x => { x with pauseReason := some reason })
      resumeTimer := some (instant s + h.setup.resumeWindow * 1000) } s

/-- The session tag of a tag-initiated session; a MANUAL session has none. -/
def sessionTag (h : Hose) : Option Nat :=
  match h.session with
  | none => none
  | some x => if x.kind = .manual then none else x.tag

/-- The session's identity kind is TAG, RANGE or REFERRED. -/
def tagInitiated (h : Hose) : Bool :=
  match h.session with
  | none => false
  | some x => x.kind != .manual

def presentTag (id : HoseId) (s : State) : Option Nat := (s.readers.get id).present.map (fun p => p.tag)

/-- The tag condition of a resume (R118). -/
def mayResume (id : HoseId) (s : State) : Bool :=
  !tagInitiated (s.hoses.get id) || presentTag id s == sessionTag (s.hoses.get id)

/-! ### Proving runs (R160) -/

/-- Indicated gross at which the valve closes: nominal × 10^6 − lead × 100,000. -/
def provingTarget (setup : HoseSetup) (r : Run) : Int :=
  ((r.nominal * Config.litre : Nat) : Int) - ((setup.lead * 100000 : Nat) : Int)

/-- Entry to PROVE_HELD: valve closed, closing instant, settle timer. `atWindow` says that a window expiry closes the valve,
so that the next window begins at the closing instant. Where another event closes it, the window in progress counts as begun
before, even where both instants are the same ms: the model's choice (notes/assumptions/45.md). -/
def enterProveHeld (id : HoseId) (flowEnd : FlowEnd) (atWindow : Bool) (s : State) : State :=
  let h := s.hoses.get id
  setHose id
    { stopSessionTimers h with
      state := .proveHeld
      outputs := closeValve h.outputs
      run := h.run.map (fun r => { stopFlowing (instant s) r with flowEnd := some flowEnd })
      settleTimer := some (instant s + h.setup.stopSettle * 1000)
      closingInstant := instant s
      windowAfterClosing := atWindow } s

/-- The start input of a run in PROVE_READY. -/
def startRun (id : HoseId) (s : State) : State :=
  let h := s.hoses.get id
  match h.run with
  | none => s
  | some r =>
    if (r.indicated : Int) < provingTarget h.setup r then
      setHose id
        { stopSessionTimers h with
          state := .proveFlowing
          outputs := openValve h.setup.startDuty h.outputs
          run := some { r with flowOpened := some (instant s) } } s
    else enterProveHeld id .target false s

/-! ### Nozzle (R79, R93, R114, R118, R119, R160) -/

/-- The tag whose pair has started its authorisation (R79). -/
def setPaired (id : HoseId) (tag : Option Nat) (s : State) : State := setHose id { s.hoses.get id with paired := tag } s

/-- The authorisation of the present tag, and the mark that its pair has started one. -/
def authorisePair (id : HoseId) (tag : Nat) (s : State) : State := authoriseTag id tag (setPaired id (some tag) s)

/-- A tag-initiated authorisation starts for the present tag when the hose is in a state of R79. -/
def startAuthorisation (id : HoseId) (s : State) : State :=
  match presentTag id s with
  | none => s
  | some tag =>
    match (s.hoses.get id).state with
    | .idle => authorisePair id tag s
    | .complete => authorisePair id tag s
    | .locked => authorisePair id tag s
    | .outOfService => authorisePair id tag s
    | _ => s

/-- A lifted nozzle completes the pair anew, whatever the hose did before with the tag present (R79). -/
def nozzleLifted (id : HoseId) (s : State) : State :=
  startAuthorisation id (setPaired id none (endRewind id .interrupted s))

def nozzleHung (id : HoseId) (s : State) : State :=
  match (s.hoses.get id).state with
  | .referred => endReferred id .abandoned s
  | .ready => closeSession id (some .abandoned) s
  | .flowing => enterStopping id .nozzleHung false s
  | .slowing => enterStopping id .nozzleHung false s
  | .paused => enterStopping id .nozzleHung false s
  | .proveFlowing => enterProveHeld id .nozzle false s
  | _ => s

/-! ### Start input (R114, R117, R118, R160) -/

def startAsserted (id : HoseId) (s : State) : State :=
  if s.field.levels.offHook.get id then
    let h := s.hoses.get id
    match h.state with
    | .ready => startDelivery id s
    | .paused =>
      if mayResume id s then startDelivery id (setHose id { h with session := h.session.map countPause } s) else s
    | .proveReady => startRun id s
    | _ => s
  else s

def startReleased (id : HoseId) (s : State) : State :=
  match (s.hoses.get id).state with
  | .flowing => pause id .operator s
  | .slowing => pause id .operator s
  | .proveFlowing => enterProveHeld id .operator false s
  | _ => s

/-! ### Emergency stop and park brake (R93, R103, R124, R162) -/

/-- Pump, manifold and valves of a hose at rest. -/
def restHose (id : HoseId) (s : State) : State :=
  setHose id { s.hoses.get id with outputs := restOutputs (s.hoses.get id).outputs } s

/-- The emergency stop becomes ASSERTED, at one hose. -/
def estopHose (id : HoseId) (s : State) : State :=
  let s := endRewind id .interrupted (restHose id s)
  match (s.hoses.get id).state with
  | .referred => endReferred id .estop s
  | .proveReady => endRun id .emergency .idle s
  | .proveFlowing => endRun id .emergency .idle s
  | .proveHeld => if judged id s then s else endRun id .emergency .idle s
  | _ => stopSession id .emergency s

/-- The emergency stop becomes ASSERTED. Hoses 1 to 3 take it in this order, then the Load Controller; R100 leaves the order
of the blocks open: the model's choice (notes/assumptions/48.md). -/
def estopAsserted (s : State) : State :=
  endLoading .emergency (estopHose .h3 (estopHose .h2 (estopHose .h1 s)))

/-- The park brake becomes RELEASED, at one hose. -/
def brakeHose (id : HoseId) (s : State) : State :=
  let st := (s.hoses.get id).state
  if st = .referred then endReferred id .vehicleMoving s
  else if openState st then stopSession id .vehicleMoved (restHose id s)
  else s

/-- The park brake becomes RELEASED, taken by hoses 1 to 3 in this order: the model's choice
(notes/assumptions/48.md). -/
def brakeReleased (s : State) : State := brakeHose .h3 (brakeHose .h2 (brakeHose .h1 s))

/-! ### Tag events (R37, R79, R93, R114, R117 to R119) -/

/-- The pair that still stands after a tag event: a loss breaks it, and a change leaves that of the new tag alone, which a
nozzle lifted before the change is taken may have made. -/
def pairAfter (v : TagEvent) (pair : Option Nat) : Option Nat :=
  match v with
  | .present _ => pair
  | .lost _ => none
  | .changed _ new => if pair = some new then pair else none

/-- The Hose Controller takes an event its port has raised: a matching first event leaves the port. A row whose event is
not the oldest there acts all the same: the model's choice (notes/assumptions/36.md). -/
def takeTagEvent (id : HoseId) (v : TagEvent) (s : State) : State :=
  let s := setPaired id (pairAfter v (s.hoses.get id).paired) s
  let r := s.readers.get id
  match r.events with
  | [] => s
  | e :: rest => if e = v then setReader id { r with events := rest } s else s

/-- A tag event completes the pair while the nozzle is off hook, but for a pair that has stayed complete since it started an
authorisation (R79). A pair completed in a state that starts none does so at its tag event (notes/assumptions/36.md). -/
def pairByTag (id : HoseId) (s : State) : State :=
  if s.field.levels.offHook.get id = true ∧ (s.hoses.get id).paired ≠ presentTag id s then startAuthorisation id s else s

def tagPresentActs (id : HoseId) (tag : Nat) (s : State) : State :=
  let h := s.hoses.get id
  match h.state with
  | .paused => if tagInitiated h && sessionTag h != some tag then enterStopping id .tagChanged false s else s
  | _ => pairByTag id s

def tagLostActs (id : HoseId) (tag : Nat) (s : State) : State :=
  let h := s.hoses.get id
  let own := tagInitiated h && sessionTag h == some tag
  match h.state with
  | .referred => endReferred id .abandoned s
  | .ready => if own then closeSession id (some .abandoned) s else s
  | .flowing => if own then pause id .tagLost s else s
  | .slowing => if own then pause id .tagLost s else s
  | _ => s

def tagChangedActs (id : HoseId) (s : State) : State :=
  let h := s.hoses.get id
  match h.state with
  | .referred => pairByTag id (endReferred id .abandoned s)
  | .ready => if tagInitiated h then pairByTag id (closeSession id (some .tagChanged) s) else s
  | .flowing => if tagInitiated h then enterStopping id .tagChanged false s else s
  | .slowing => if tagInitiated h then enterStopping id .tagChanged false s else s
  | .paused => if tagInitiated h then enterStopping id .tagChanged false s else s
  | _ => pairByTag id s

/-! ### Timers (R93, R114, R118, R127, R161, R162) -/

/-- A timer that belongs to one hose state. -/
def runsIn (st : HoseState) (h : Hose) (t : Option Nat) : Option Nat := if h.state = st then t else none

/-- Forward pulses of the channel's last completed window. -/
def lastPulses (c : Channel) : Nat :=
  match c.result with
  | none => 0
  | some r => r.n

/-- A forward pulse was counted in the window in progress or in the last one completed. -/
def stillMoving (c : Channel) : Bool := decide (0 < c.n) || decide (0 < lastPulses c)

/-- VALVE is reported to the hose's bank (R127, R161). -/
def reportValve (id : HoseId) (s : State) : State :=
  report (.hose id) .valve id.number (lastPulses (s.channels.get id.meter)) s

/-- The settle timer expires in STOPPING (R127). -/
def settleExpires (id : HoseId) (s : State) : State :=
  if stillMoving (s.channels.get id.meter) then closeSession id none (stopFault id .fault (reportValve id s))
  else closeSession id none s

/-- The run has come to rest. -/
def settleRun (id : HoseId) (s : State) : State :=
  let h := s.hoses.get id
  setHose id { h with run := h.run.map (fun r => { r with settled := true }), settleTimer := none } s

/-- The settle timer expires in PROVE_HELD (R161). -/
def proveSettleExpires (id : HoseId) (s : State) : State :=
  if stillMoving (s.channels.get id.meter) then stopFault id .fault (reportValve id s) else settleRun id s

/-! ### Commands (R123, R131, R132) -/

/-- HOSE STOP (R123). The answer in STOPPING carries the state like the others: the model's choice
(notes/assumptions/12.md). -/
def doHoseStop (hose : Nat) (s : State) : Reply :=
  match hoseOf hose with
  | none => answer .malformed s
  | some id =>
    if openState (s.hoses.get id).state then
      let s := stopSession id .hostStop s
      okWith (u8 (hoseStateCode (s.hoses.get id).state)) s
    else answer .state s

/-- The session record with its last field, last refusal (7.1). -/
def sessionRecordBytes (h : Hose) (x : Session) : List Byte :=
  sessionBytes x ++ optional lastRefusalBytes h.lastRefusal

/-- The hose after COLLECT of its session `x` (R131). -/
def collected (x : Session) (h : Hose) : Hose :=
  { h with
    session := some { x with collected := true, due := false }
    state := if h.state = .complete then .idle else h.state
    returnState := if h.returnState = some .complete then some .idle else h.returnState }

/-- COLLECT (R131). -/
def doCollect (hose number : Nat) (s : State) : Reply :=
  match hoseOf hose with
  | none => answer .malformed s
  | some id =>
    if !inRange 1 65535 number then answer .malformed s
    else
      let h := s.hoses.get id
      match h.session with
      | none => answer .noRecord s
      | some x =>
        if openState h.state then answer .state s
        else if x.number ≠ number then answer .state s
        else if x.collected then okWith (sessionRecordBytes h x) s
        else
          okWith (sessionRecordBytes h { x with collected := true, due := false }) (setHose id (collected x h) s)

/-- Time left in ms on a timer, absent while it is stopped. -/
def timerBytes (now : Nat) (t : Option Nat) : List Byte := optional (fun d => u32 (d - now)) t

/-- Whichever of the session's timers runs. -/
def runningTimer (h : Hose) : Option Nat := h.readyTimer.or (h.resumeTimer.or h.settleTimer)

/-- The waiting request: tag, resolution, time left (R132). RANGE is the byte 1 with the entry number and DEFAULT the byte 2:
the model's choice (notes/assumptions/12.md). -/
def waitingBytes (now : Nat) (h : Hose) : List Byte :=
  match h.waiting with
  | none => []
  | some w =>
    tagBytes w.tag ++ (match w.entry with
      | some i => u8 1 ++ u8 i
      | none => u8 2) ++ u32 (timeLeft now h.referTimer)

/-- SESSION READ (R132). -/
def doSessionRead (hose : Nat) (s : State) : Reply :=
  match hoseOf hose with
  | none => answer .malformed s
  | some id =>
    let h := s.hoses.get id
    okWith
      (u8 (hoseStateCode h.state) ++ optional sessionBytes h.session ++ optional lastRefusalBytes h.lastRefusal
        ++ (if openState h.state then
              u8 h.lowFlowRun ++ u8 h.overspeedRun ++ timerBytes (instant s) (runningTimer h)
            else [])
        ++ (if h.state = .referred then waitingBytes (instant s) h else [])) s

/-! ### Rows -/

/-- HOSE STOP (R123). -/
def execHoseStop (hose : Nat) (s : State) : Host.Outcome State Fault Refusal :=
  hostRow (.hoseStop hose) (doHoseStop hose) s

/-- COLLECT (R131). -/
def execCollect (hose number : Nat) (s : State) : Host.Outcome State Fault Refusal :=
  hostRow (.collect hose number) (doCollect hose number) s

/-- SESSION READ (R132). -/
def execSessionRead (hose : Nat) (s : State) : Host.Outcome State Fault Refusal :=
  hostRow (.sessionRead hose) (doSessionRead hose) s

/-- The emergency stop (R103, R124); its release may open the inlet (R170). -/
def execEmergencyStop (asserted : Bool) (s : State) : Host.Outcome State Fault Refusal :=
  .next
    (switchStep s.field.levels.estop asserted placeEstop
      (fun s => if asserted then estopAsserted s else tryOpenInlet s) s)

/-- The park brake (R103, R124). -/
def execParkBrake (applied : Bool) (s : State) : Host.Outcome State Fault Refusal :=
  .next
    (switchStep s.field.levels.park applied placePark (fun s => if applied then s else brakeReleased s) s)

/-- The nozzle switch (R79, R100). -/
def execNozzleSwitch (id : HoseId) (offHook : Bool) (s : State) : Host.Outcome State Fault Refusal :=
  .next
    (switchStep (s.field.levels.offHook.get id) offHook (placeOffHook id)
      (fun s => if offHook then nozzleLifted id s else nozzleHung id s) s)

/-- The start input (R100, R115). -/
def execStartInput (id : HoseId) (asserted : Bool) (s : State) : Host.Outcome State Fault Refusal :=
  .next
    (switchStep (s.field.levels.start.get id) asserted (placeStart id)
      (fun s => if asserted then startAsserted id s else startReleased id s) s)

/-- tag-present at the Hose Controller (R79, R118). -/
def execTagPresent (id : HoseId) (tag : Nat) (s : State) : Host.Outcome State Fault Refusal :=
  fieldRow (fun s => tagPresentActs id tag (takeTagEvent id (.present tag) s)) s

/-- tag-lost at the Hose Controller (R93, R114, R117). -/
def execTagLost (id : HoseId) (tag : Nat) (s : State) : Host.Outcome State Fault Refusal :=
  fieldRow (fun s => tagLostActs id tag (takeTagEvent id (.lost tag) s)) s

/-- tag-changed at the Hose Controller (R79, R93, R114, R118, R119). -/
def execTagChanged (id : HoseId) (old new : Nat) (s : State) : Host.Outcome State Fault Refusal :=
  fieldRow (fun s => tagChangedActs id (takeTagEvent id (.changed old new) s)) s

/-- The REFER deadline expires (R93). -/
def execReferDeadlineExpiry (id : HoseId) (s : State) : Host.Outcome State Fault Refusal :=
  fieldRow
    (fun s => expire (runsIn .referred (s.hoses.get id) (s.hoses.get id).referTimer)
      (endReferred id .referTimeout) s) s

/-- The ready timer expires in READY (R114). -/
def execReadyTimerExpiry (id : HoseId) (s : State) : Host.Outcome State Fault Refusal :=
  fieldRow
    (fun s => expire (runsIn .ready (s.hoses.get id) (s.hoses.get id).readyTimer)
      (closeSession id (some .notStarted)) s) s

/-- The resume timer expires in PAUSED (R118). -/
def execResumeTimerExpiry (id : HoseId) (s : State) : Host.Outcome State Fault Refusal :=
  fieldRow
    (fun s => expire (runsIn .paused (s.hoses.get id) (s.hoses.get id).resumeTimer)
      (enterStopping id .pauseExpired false) s) s

/-- The settle timer expires in STOPPING (R127). -/
def execSettleTimerExpiry (id : HoseId) (s : State) : Host.Outcome State Fault Refusal :=
  fieldRow
    (fun s => expire (runsIn .stopping (s.hoses.get id) (s.hoses.get id).settleTimer) (settleExpires id) s) s

/-- The ready timer expires in PROVE_READY (R162). -/
def execProveReadyTimeout (id : HoseId) (s : State) : Host.Outcome State Fault Refusal :=
  fieldRow
    (fun s => expire (runsIn .proveReady (s.hoses.get id) (s.hoses.get id).readyTimer)
      (endRun id .timeout .idle) s) s

/-- The settle timer expires in PROVE_HELD (R161). -/
def execProveSettleTimerExpiry (id : HoseId) (s : State) : Host.Outcome State Fault Refusal :=
  fieldRow
    (fun s => expire (runsIn .proveHeld (s.hoses.get id) (s.hoses.get id).settleTimer)
      (proveSettleExpires id) s) s

end Sys2Proof.Machine
end

