-- ==== Sys2Proof/Machine/Metering.lean ====
section
/-! DEFINITION. The Metering Engine (Chapter 8): pulses, the window computation, the distribution of volume, and the
hand-over of each window's result to the hose (7.4, 7.8, 9.3) or to the Load Controller (10.4, 10.5). -/

namespace Sys2Proof.Machine

/-! ### Pulses (R136 to R138) -/

/-- The pin states after one step: forward from equal levels, and reverse from unequal ones, channel A changes;
otherwise channel B. -/
def movesA (forward : Bool) (c : Channel) : Bool := (c.pinA == c.pinB) == forward

/-- One pin changes, and its change flag is set (R101). -/
def movePin (m : MeterId) (forward : Bool) (s : State) : State :=
  let c := s.channels.get m
  if movesA forward c then
    { setChannel m { c with pinA := !c.pinA } s with
      field := { s.field with pulserAChanged := s.field.pulserAChanged.set m true } }
  else
    { setChannel m { c with pinB := !c.pinB } s with
      field := { s.field with pulserBChanged := s.field.pulserBChanged.set m true } }

/-- Both pins change. -/
def moveBothPins (m : MeterId) (s : State) : State :=
  let c := s.channels.get m
  { setChannel m { c with pinA := !c.pinA, pinB := !c.pinB } s with
    field :=
      { s.field with
        pulserAChanged := s.field.pulserAChanged.set m true
        pulserBChanged := s.field.pulserBChanged.set m true } }

/-- A pin moves while the controller does not run: no event and no flag. -/
def driftPins (pinA pinB : Bool) (m : MeterId) (s : State) : State :=
  setChannel m { s.channels.get m with pinA := pinA, pinB := pinB } s

/-- A STOP-severity pulser fault: reported, then its effect (R122, R138). -/
def pulserFault (m : MeterId) (kind : ErrorKind) (detail : Nat) (s : State) : State :=
  meterStop m (report (.meter m) kind m.number detail s)

/-- A completed forward pulse (R137). -/
def countForward (m : MeterId) (capture : Nat) (s : State) : State :=
  let c := { s.channels.get m with step := 0 }
  if 0 < c.debt then setChannel m { c with debt := c.debt - 1 } s
  else if c.n < Config.countMax then
    setChannel m { c with n := c.n + 1, first := some (c.first.getD capture), last := some capture } s
  else if c.fullReported then setChannel m c s
  else pulserFault m .pulser 1 (setChannel m { c with fullReported := true } s)

/-- A completed reverse pulse (R137). -/
def countReverse (m : MeterId) (s : State) : State :=
  let c := s.channels.get m
  setChannel m { c with step := 0, debt := satAdd Config.countMax c.debt 1 } s

/-- An illegal transition; the third of a channel is reported (R138). -/
def countIllegal (m : MeterId) (s : State) : State :=
  let c := s.channels.get m
  let s := setChannel m { c with illegal := satAdd 255 c.illegal 1 } s
  if c.illegal = 2 then pulserFault m .pulser 2 s else s

/-- The sample that completes a forward pulse at a reading of the capture counter. -/
def forwardPulse (m : MeterId) (capture : Nat) (s : State) : State :=
  let capture := capture % Config.clockModulus
  countForward m capture (setTimebase { s.timebase with capture := capture } (movePin m true s))

def reversePulse (m : MeterId) (s : State) : State := countReverse m (movePin m false s)

/-- One step of the accumulator; at +4 and at −4 it completes a pulse (R136). -/
def quarterStep (m : MeterId) (forward : Bool) (s : State) : State :=
  let s := movePin m forward s
  let c := s.channels.get m
  let step := if forward then c.step + 1 else c.step - 1
  if 4 ≤ step then countForward m s.timebase.capture s
  else if step ≤ -4 then countReverse m s
  else setChannel m { c with step := step } s

/-- A row of a pulser; while the controller does not run only its pins move. -/
def pulserRow (drift act : State → State) (s : State) : Host.Outcome State Fault Refusal :=
  match s.supply.power with
  | .running => .next (evaluatePermit (act s))
  | .held => .next (drift s)
  | .unpowered => .next (drift s)

/-- The pins after one step, without the flags. -/
def driftOne (m : MeterId) (forward : Bool) (s : State) : State :=
  let c := s.channels.get m
  if movesA forward c then driftPins (!c.pinA) c.pinB m s else driftPins c.pinA (!c.pinB) m s

def driftBoth (m : MeterId) (s : State) : State :=
  let c := s.channels.get m
  driftPins (!c.pinA) (!c.pinB) m s

/-! ### Flow, factor, gross, temperature, net (R140 to R144) -/

/-- Capture interval in µs, modulo 2^32. -/
def interval (first last : Option Nat) : Nat :=
  (last.getD 0 + Config.clockModulus - first.getD 0) % Config.clockModulus

/-- q in L/min (R140). -/
def flowRate (n pulseVolume window dt : Nat) : Nat :=
  if 2 ≤ n then
    min (if dt = 0 then Config.flowAtZeroInterval n pulseVolume else (n - 1) * pulseVolume * 60 / dt) 65535
  else min (n * pulseVolume * 60 / (window * 1000)) 65535

/-- Interpolation between two neighbouring points, the division rounded toward zero (R141). -/
def interpolate (q : Nat) (lo hi : LinPoint) : Nat :=
  ((lo.factor : Int)
    + Int.tdiv (((hi.factor : Int) - lo.factor) * ((q : Int) - lo.flow)) ((hi.flow : Int) - lo.flow)).toNat

/-- LF for a q above the flow of `lo`. -/
def factorFrom (q : Nat) (lo : LinPoint) : List LinPoint → Nat
  | [] => lo.factor
  | hi :: rest => if q < hi.flow then interpolate q lo hi else factorFrom q hi rest

/-- LF (R141). -/
def linearFactor (q : Nat) (r : MeterRecord) : Nat :=
  if q ≤ r.firstPoint.flow then r.firstPoint.factor else factorFrom q r.firstPoint r.morePoints

/-- Fallback temperature of a grade, 15.0 °C for no grade (R143). -/
def fallbackOf (g : Option Grade) (s : State) : Int :=
  match g with
  | none => 150
  | some g => (s.store.grades.get g).fallback

/-- A window's destination with what it names. -/
inductive Owner where
  | session (h : HoseId)
  | run (h : HoseId)
  | load (slot : Nat)
  | hoseNobody (h : HoseId)
  | inletNobody
deriving DecidableEq, Repr

/-- The owner a window expiry finds (R145 to R147, R150). A window that HIGH_LEVEL precedes is nobody's, as R150 and R173
state; a cell of R177 says otherwise: the model's choice (notes/assumptions/46.md). -/
def ownerOf (m : MeterId) (s : State) : Owner :=
  match meterHose m with
  | some id =>
    match (s.hoses.get id).state with
    | .flowing => .session id
    | .slowing => .session id
    | .paused => .session id
    | .stopping => .session id
    | .proveReady => .run id
    | .proveFlowing => .run id
    | .proveHeld => .run id
    | _ => .hoseNobody id
  | none =>
    match loadingOrder s with
    | some (slot, _) => .load slot
    | none => .inletNobody

def Owner.destination : Owner → Destination
  | .session _ => .session
  | .run _ => .run
  | .load _ => .load
  | .hoseNobody _ => .unattributed
  | .inletNobody => .unattributed

/-- The grade of a window (R143). -/
def windowGrade (o : Owner) (s : State) : Option Grade :=
  match o with
  | .session id => (s.hoses.get id).session.map (fun x => x.grade)
  | .run id =>
    match (s.hoses.get id).run with
    | none => none
    | some r => (s.compartments.get r.compartment).grade
  | .load slot => (tableGet s.loads.orders slot).map (fun x => x.grade)
  | .hoseNobody id =>
    match (s.hoses.get id).lastSource with
    | none => none
    | some c => (s.compartments.get c).grade
  | .inletNobody => none

/-- The result of a window, with its new residues: steps 2 to 6 of R139. -/
def computeWindow (m : MeterId) (o : Owner) (reading : Int) (s : State) : WindowResult × Nat × Nat :=
  let c := s.channels.get m
  let p := s.store.meters.get m
  let g := windowGrade o s
  let q := flowRate c.n p.pulseVolume s.timebase.window (interval c.first c.last)
  let lf := linearFactor q p
  let a := c.n * p.pulseVolume * lf + c.grossResidue
  let gross := a / 65536
  let temperature := if tempValid reading then clampTemp reading else fallbackOf g s
  let f := vcf (alphaOf g s) temperature
  let b := gross * f + c.netResidue
  ({ meter := m
     start := s.timebase.windowStart
     length := s.timebase.window
     n := c.n
     q := q
     lf := lf
     gross := gross
     temperature := temperature
     fallback := !tempValid reading
     vcf := f
     net := b / 1000000
     destination := o.destination }, a % 65536, b % 1000000)

/-! ### Step 1: the reverse debt (R138) -/

def reverseTest (m : MeterId) (s : State) : State :=
  let c := s.channels.get m
  if 2000000 < c.debt * (s.store.meters.get m).pulseVolume then
    if c.reverseMark then s
    else pulserFault m .reverse c.debt (setChannel m { c with reverseMark := true } s)
  else setChannel m { c with reverseMark := false } s

/-! ### The channel takes its window (R139, R143, R148) -/

/-- The context after a window: residues, flow, result, totaliser; the next window starts with a count of 0. -/
def closeWindow (r : WindowResult) (grossResidue netResidue : Nat) (c : Channel) : Channel :=
  let total := c.totaliser + r.gross
  { c with
    n := 0
    first := none
    last := none
    grossResidue := grossResidue
    netResidue := netResidue
    lastFlow := r.q
    probeValid := !r.fallback
    totaliser := total % Config.totaliserModulus
    wraps := if total < Config.totaliserModulus then c.wraps else satAdd Config.countMax c.wraps 1
    result := some r
    fullReported := false }

/-- The first window of a probe out of range reports TEMP_PROBE. -/
def probeTest (m : MeterId) (reading : Int) (s : State) : State :=
  if !tempValid reading && (s.channels.get m).probeValid then
    report (.meter m) .tempProbe m.number reading s
  else s

/-! ### Distribution (R145 to R147) -/

/-- The session takes its gross and net, its flags and its overrun (R112, R143, R145). -/
def addToSession (r : WindowResult) (x : Session) : Session :=
  let net := satAdd Config.volumeMax x.net r.net
  { x with
    gross := satAdd Config.volumeMax x.gross r.gross
    net := net
    overrun := net - x.hold * Config.litre
    saturated := x.saturated || decide (Config.volumeMax < x.gross + r.gross)
      || decide (Config.volumeMax < x.net + r.net)
    uncompensated := x.uncompensated || r.fallback }

def toSession (id : HoseId) (r : WindowResult) (s : State) : State :=
  let h := s.hoses.get id
  match h.session with
  | none => s
  | some x =>
    debit x.compartment r.net (min r.net (contribution x)) (setHose id { h with session := some (addToSession r x) } s)

def toRun (id : HoseId) (r : WindowResult) (s : State) : State :=
  let h := s.hoses.get id
  setHose id
    { h with run := h.run.map (fun x => { x with indicated := satAdd Config.volumeMax x.indicated r.gross }) } s

def addUnattributed (m : MeterId) (net : Nat) (s : State) : State :=
  let c := s.channels.get m
  setChannel m { c with unattributed := satAdd Config.unattributedMax c.unattributed net } s

/-- The last source compartment is debited (R62, R106). -/
def debitLastSource (id : HoseId) (net : Nat) (s : State) : State :=
  match (s.hoses.get id).lastSource with
  | none => s
  | some c => debit c net 0 s

/-- LEAK, where unattributed volume was added and exceeds the creep limit (R107). -/
def creepTest (id : HoseId) (net : Nat) (s : State) : State :=
  let h := s.hoses.get id
  let u := (s.channels.get id.meter).unattributed
  if 0 < net ∧ h.leakLatch = false ∧ h.setup.creepLimit * 100000 < u then
    stopFault id .fault
      (report (.hose id) .leak id.number ((u / 1000 : Nat) : Int) (setHose id { h with leakLatch := true } s))
  else s

/-- The order takes its metered volumes (R147). -/
def addToOrder (r : WindowResult) (o : LoadOrder) : LoadOrder :=
  { o with
    gross := satAdd Config.volumeMax o.gross r.gross
    net := satAdd Config.volumeMax o.net r.net }

def toOrder (slot : Nat) (r : WindowResult) (s : State) : State :=
  match tableGet s.loads.orders slot with
  | none => s
  | some o => credit o.compartment r.net (setOrder slot (addToOrder r o) s)

/-- Step 7 of R139. -/
def distribute (m : MeterId) (o : Owner) (r : WindowResult) (s : State) : State :=
  match o with
  | .session id => toSession id r s
  | .run id => toRun id r s
  | .load slot => toOrder slot r s
  | .hoseNobody id => creepTest id r.net (debitLastSource id r.net (addUnattributed m r.net s))
  | .inletNobody => addUnattributed m r.net s

/-! ### Hand-over to the hose (R105, R116, R120, R121, R126, R160, R161) -/

/-- One regulation step (R105). -/
def regulate (q setPoint staged : Nat) : Nat :=
  let duty :=
    if setPoint * 102 < q * 100 then staged - 10
    else if q * 100 < setPoint * 98 then staged + 10
    else staged
  max 100 (min duty 1000)

/-- The regulation set point in a delivering state. -/
def regulationPoint (st : HoseState) (setup : HoseSetup) (x : Session) : Nat :=
  match st with
  | .slowing => min setup.slowFlow x.setPoint
  | _ => x.setPoint

def stageDuty (id : HoseId) (q setPoint : Nat) (s : State) : State :=
  let h := s.hoses.get id
  setHose id { h with outputs := { h.outputs with staged := regulate q setPoint h.outputs.staged } } s

/-- The window runs of R120 and R121. -/
def countRuns (r : WindowResult) (h : Hose) : Hose :=
  { h with
    lowFlowRun := if r.n < h.setup.noFlowThreshold then h.lowFlowRun + 1 else 0
    overspeedRun := if h.setup.maxFlow * 125 < r.q * 100 then h.overspeedRun + 1 else 0 }

/-- NO_FLOW at its run of windows (R120). -/
def noFlowTest (id : HoseId) (s : State) : State :=
  let h := s.hoses.get id
  if h.setup.noFlowWindows ≤ h.lowFlowRun then report (.hose id) .noFlow id.number h.lowFlowRun s else s

/-- OVERSPEED at its run of windows, a STOP fault found in the session (R121, R122). -/
def overspeedTest (id : HoseId) (q : Nat) (s : State) : State :=
  let h := s.hoses.get id
  if 2 ≤ h.overspeedRun then
    setHose id { h with stopFaultFound := true } (report (.hose id) .overspeed id.number q s)
  else s

/-- The cause with which the window runs stop a session: the first found, in the order in which R116 names them
(notes/assumptions/20.md). -/
def runCause (h : Hose) : Option StopCause :=
  if h.setup.noFlowWindows ≤ h.lowFlowRun then some .noFlow
  else if 2 ≤ h.overspeedRun then some .overspeed
  else none

/-- A result handed to a delivering session: HOLD_REACHED alone, or both window runs, each with its report. -/
def deliverResult (id : HoseId) (r : WindowResult) (x : Session) (s : State) : State :=
  let h := countRuns r (s.hoses.get id)
  let s := setHose id h s
  match startState h.setup x with
  | none => enterStopping id .holdReached true s
  | some st =>
    match runCause h with
    | some cause => enterStopping id cause true (overspeedTest id r.q (noFlowTest id s))
    | none =>
      let st := if h.state = .slowing then .slowing else st
      stageDuty id r.q (regulationPoint st h.setup x) (setHose id { h with state := st } s)

/-- The window in progress from now on began at or after the closing instant. -/
def windowPassed (id : HoseId) (s : State) : State :=
  setHose id { s.hoses.get id with windowAfterClosing := true } s

def handToHose (id : HoseId) (r : WindowResult) (s : State) : State :=
  let h := s.hoses.get id
  match h.state with
  | .flowing =>
    match h.session with
    | none => s
    | some x => deliverResult id r x s
  | .slowing =>
    match h.session with
    | none => s
    | some x => deliverResult id r x s
  | .stopping => if h.windowAfterClosing ∧ r.n = 0 then closeSession id none s else windowPassed id s
  | .proveFlowing =>
    match h.run with
    | none => s
    | some run =>
      if provingTarget h.setup run ≤ (run.indicated : Int) then enterProveHeld id .target true s
      else stageDuty id r.q run.setPoint s
  | .proveHeld =>
    match h.run with
    | none => s
    | some run =>
      if !run.settled && h.windowAfterClosing && r.n == 0 then settleRun id s else windowPassed id s
  | _ => s

/-! ### Hand-over to the Load Controller (R172, R173, R175) -/

/-- Flow start and idle supervision. -/
def superviseFlow (slot : Nat) (o : LoadOrder) (n : Nat) (s : State) : State :=
  if n = 0 then s
  else
    setLoads
      { s.loads with
        orders := tableSet s.loads.orders slot { o with flowStart := some (o.flowStart.getD (siteTime s)) }
        armTimer := none
        idleTimer := some (instant s + s.loads.setup.idle * 1000) } s

/-- The book has reached the ullage limit. -/
def ullageTest (s : State) : State :=
  match loadingOrder s with
  | none => s
  | some (slot, o) =>
    if ((s.loads.ullageLimit : Nat) : Int) ≤ (s.compartments.get o.compartment).book then
      closeInlet slot o .ullage s
    else s

/-- The inlet valve watch (R175). -/
def watchValve (r : WindowResult) (s : State) : State :=
  match s.loads.watch, activeOrder s with
  | some t, some (_, o) =>
    if t + Config.valveWatchDelay ≤ r.start ∧ 0 < r.n then
      setLoads { s.loads with lock := true, watch := none }
        (report .inlet .inletValve o.compartment.number r.n s)
    else s
  | _, _ => s

def handToLoad (r : WindowResult) (s : State) : State :=
  let s := watchValve r s
  match loadingOrder s with
  | none => s
  | some (slot, o) => ullageTest (superviseFlow slot o r.n s)

/-! ### The window expiry (R139) -/

/-- One channel's window. -/
def channelWindow (m : MeterId) (reading : Int) (s : State) : State :=
  let o := ownerOf m s
  let s := reverseTest m s
  let w := computeWindow m o reading s
  let s := probeTest m reading s
  let s := setChannel m (closeWindow w.1 w.2.1 w.2.2 (s.channels.get m)) s
  let s := distribute m o w.1 s
  match meterHose m with
  | some id => handToHose id w.1 s
  | none => handToLoad w.1 s

/-- The latest readings of the four line temperature probes. -/
def takeLineTemps (t : ByFour Int) (s : State) : State :=
  let s := takeLineTemp .h3 t.three (takeLineTemp .h2 t.two (takeLineTemp .h1 t.one s))
  { s with field := { s.field with lineTemp := s.field.lineTemp.set .four t.four } }

/-- The next window starts at the instant of expiry, with the pending length (R179). -/
def startWindow (s : State) : State :=
  setTimebase { s.timebase with window := s.timebase.pendingWindow, windowStart := s.timebase.now } s

/-- The window timer expires: four channels in order, then the next window; a book that has changed may open the
inlet (R170). -/
def windowExpires (t : ByFour Int) (s : State) : State :=
  let s := takeLineTemps t (reachInstant (s.timebase.windowStart + s.timebase.window) s)
  let s := channelWindow .two t.two (channelWindow .one t.one s)
  let s := channelWindow .four t.four (channelWindow .three t.three s)
  tryOpenInlet (startWindow s)

/-! ### METER READ (R151) -/

/-- What a channel's next window would find: the hose state, or the LOADING order's slot. -/
def ownerBytes (m : MeterId) (s : State) : List Byte :=
  match meterHose m with
  | some id => u8 (hoseStateCode (s.hoses.get id).state)
  | none => optional (fun p : Nat × LoadOrder => u8 p.1) (loadingOrder s)

/-- METER READ (R151). -/
def doMeterRead (meter : Nat) (s : State) : Reply :=
  match fourOf meter with
  | none => answer .malformed s
  | some m =>
    okWith
      (channelBytes (s.channels.get m) ++ u64 (s.store.meters.get m).pulseVolume
        ++ firstOf (s.store.meters.get m).calibrated ++ ownerBytes m s) s

/-! ### Rows -/

/-- METER READ (R151). -/
def execMeterRead (meter : Nat) (s : State) : Host.Outcome State Fault Refusal :=
  hostRow (.meterRead meter) (doMeterRead meter) s

/-- A completed forward pulse (R136, R137). -/
def execForwardPulse (m : MeterId) (capture : Nat) (s : State) : Host.Outcome State Fault Refusal :=
  pulserRow (driftOne m true) (forwardPulse m capture) s

/-- A completed reverse pulse (R136, R137). -/
def execReversePulse (m : MeterId) (s : State) : Host.Outcome State Fault Refusal :=
  pulserRow (driftOne m false) (reversePulse m) s

/-- An illegal transition (R136, R138). -/
def execIllegalTransition (m : MeterId) (s : State) : Host.Outcome State Fault Refusal :=
  pulserRow (driftBoth m) (fun s => countIllegal m (moveBothPins m s)) s

/-- One quarter step of a pulser (R136). -/
def execPulserQuarterStep (m : MeterId) (forward : Bool) (s : State) : Host.Outcome State Fault Refusal :=
  pulserRow (driftOne m forward) (quarterStep m forward) s

/-- The window timer expires (R139). -/
def execWindowExpiry (t : ByFour Int) (s : State) : Host.Outcome State Fault Refusal :=
  fieldRow (windowExpires t) s

end Sys2Proof.Machine
end

