-- ==== Sys2Proof/Machine/Metrology.lean ====
section
/-! DEFINITION. The Metrology Store and proving runs (Chapter 9): sealed writes, their completion, and the commands
of a run. -/

namespace Sys2Proof.Machine

/-! ### Writing the store (R153 to R156) -/

/-- The hose is in an open-session or proving state. -/
def metering (h : Hose) : Bool := openState h.state || provingState h.state

/-- Some order is ARMED, LOADING or SETTLING. -/
def orderActive (s : State) : Bool := (activeOrder s).isSome

/-- Work that keeps METROLOGY WRITE off a meter (R155, check 3). -/
def meterBusy (m : MeterId) (s : State) : Bool :=
  match meterHose m with
  | some h => metering (s.hoses.get h)
  | none => orderActive s

/-- Work that keeps GRADE COEFFICIENT WRITE off (R156). -/
def anyMetering (s : State) : Bool := s.hoses.toList.any metering || (loadingOrder s).isSome

/-- An accepted write holds the port until STORE_WRITE_COMPLETE; the answer waits for it. -/
def beginWrite (c : Instr) (change : StoreChange) (s : State) : Reply :=
  (setStore { s.store with write := some { command := c, change := change } } s, none)

/-- METROLOGY WRITE (R155). -/
def doMetrologyWrite (meter pulseVolume : Nat) (points : List LinPoint) (s : State) : Reply :=
  match fourOf meter, points with
  | none, _ => answer .malformed s
  | some _, [] => answer .malformed s
  | some m, p :: rest =>
    if !(inRange 1000 100000 pulseVolume && linPointsOk (p :: rest)) then answer .malformed s
    else if !s.field.levels.sealClosed then answer .sealed s
    else if meterBusy m s then answer .busy s
    else beginWrite (.metrologyWrite meter pulseVolume points) (.meter m pulseVolume p rest) s

/-- GRADE COEFFICIENT WRITE (R156). -/
def doGradeCoefficientWrite (grade : Grade) (alpha : Nat) (fallback : Int) (s : State) : Reply :=
  if !(decide (alpha ≤ 2000) && decide (-400 ≤ fallback) && decide (fallback ≤ 850)) then answer .malformed s
  else if !s.field.levels.sealClosed then answer .sealed s
  else if anyMetering s then answer .busy s
  else
    beginWrite (.gradeCoefficientWrite grade alpha fallback)
      (.grade grade { alpha := alpha, fallback := fallback }) s

/-- A change counter rises by 1, stopping at 65,535 (R153). -/
def countChange (r : MeterRecord) : MeterRecord := { r with changes := satAdd Config.countMax r.changes 1 }

/-- The point with number `k`, counted from 1, takes a factor. -/
def setPointFactor (k factor : Nat) (r : MeterRecord) : MeterRecord :=
  if k = 1 then { r with firstPoint := { r.firstPoint with factor := factor } }
  else { r with morePoints := r.morePoints.modify (k - 2) (fun p => { p with factor := factor }) }

/-- A judged run whose factor has been written ends UPDATED; a STOP fault found meanwhile locks the hose
(R163, R165). -/
def runUpdated (id : HoseId) (r : RunResult) (s : State) : State :=
  let h := s.hoses.get id
  endRun id .updated (if h.stopFaultFound then .locked else .idle)
    (setHose id { h with run := h.run.map (fun x => { x with result := some r }) } s)

/-- The write in progress completes: the store takes it, and its command's answer is formed. -/
def applyWrite (w : StoreWrite) (s : State) : State × Answer :=
  let st := { s.store with write := none }
  match w.change with
  | .meter m pv p rest =>
    let r := countChange
      { s.store.meters.get m with pulseVolume := pv, firstPoint := p, morePoints := rest, calibrated := true }
    (setStore { st with meters := st.meters.set m r, restored := false } s, ⟨.ok, u16 r.changes⟩)
  | .grade g r =>
    (setStore { st with grades := st.grades.set g r, meters := st.meters.map countChange, restored := false } s,
      ⟨.ok, []⟩)
  | .factor id r =>
    let m := countChange (setPointFactor r.point r.newFactor (s.store.meters.get id.meter))
    (runUpdated id r (setStore { st with meters := st.meters.set id.meter m } s),
      ⟨.ok, u8 (runOutcomeCode .updated) ++ u8 r.point ++ u32 r.oldFactor ++ u32 r.newFactor⟩)

/-- The non-volatile write completes (R155, R190, R192). -/
def storeWritten (s : State) : State :=
  match s.store.write with
  | none => s
  | some w =>
    let r := applyWrite w s
    finish w.command r.2 r.1

def gradeRecordBytes (r : GradeRecord) : List Byte := u16 r.alpha ++ leSigned 2 r.fallback

/-- METROLOGY READ (R158). -/
def doMetrologyRead (meter : Nat) (s : State) : Reply :=
  match fourOf meter with
  | none => answer .malformed s
  | some m =>
    let r := s.store.meters.get m
    okWith
      (u64 r.pulseVolume ++ counted linPointBytes (r.firstPoint :: r.morePoints) ++ firstOf r.calibrated
        ++ u16 r.changes ++ s.store.grades.toList.flatMap gradeRecordBytes ++ firstOf (!s.store.restored)
        ++ flagByte s.field.levels.sealClosed) s

/-! ### Starting a run (R159) -/

/-- The grade is in the hose's class. -/
def gradeInClass (id : HoseId) (g : Grade) : Bool := (g == .g3) == fluidHose id

/-- The grade of a compartment a run may draw from (check 6). -/
def provingGrade (id : HoseId) (k : Compartment) : Option Grade :=
  match k.grade with
  | none => none
  | some g => if gradeInClass id g && k.state == .inService then some g else none

/-- The first compartment of the preference list that meets check 6, with its grade. -/
def provingSource (id : HoseId) (s : State) : Option (CompId × Grade) :=
  (s.hoses.get id).setup.preference.findSome?
    (fun c => (provingGrade id (s.compartments.get c)).map (fun g => (c, g)))

/-- The run record PROVE START writes. -/
def newRun (c : CompId) (g : Grade) (flow nominal : Nat) : Run where
  compartment := c
  grade := g
  setPoint := flow
  nominal := nominal
  indicated := 0
  flowingTime := 0
  flowOpened := none
  flowEnd := none
  settled := false
  outcome := .running
  result := none

/-- The run takes the hose (R159). -/
def enterProveReady (id : HoseId) (r : Run) (s : State) : State :=
  let s := openChannel id.meter s
  let h := s.hoses.get id
  setHose id
    { h with
      state := .proveReady
      outputs := { h.outputs with pump := true, manifold := some r.compartment, mainValve := false, staged := 0 }
      lastSource := some r.compartment
      run := some r
      readyTimer := some (instant s + h.setup.readyTimeout * 1000)
      stopFaultFound := false
      windowAfterClosing := false } s

/-- Checks 3 to 5 of PROVE START. -/
def provable (id : HoseId) (s : State) : Bool :=
  (s.hoses.get id).state == .idle && !(s.hoses.get id).outputs.reel && !s.field.levels.estop
    && !hoseStopValid id s && calibrated id.meter s

/-- PROVE START (R159). -/
def doProveStart (hose flow nominal : Nat) (s : State) : Reply :=
  match hoseOf hose with
  | none => answer .malformed s
  | some id =>
    if !(inRange 5 1000 flow && inRange 20 2000 nominal) then answer .malformed s
    else if !s.field.levels.sealClosed then answer .sealed s
    else if !provable id s then answer .state s
    else
      match provingSource id s with
      | none => answer .state s
      | some (c, g) =>
        if (s.compartments.get c).gauge.isSome then answer .busy s
        else
          answer .accepted
            (enterProveReady id (newRun c g (min flow (s.hoses.get id).setup.maxFlow) nominal) s)

/-! ### The result (R163) -/

/-- Average flow in L/min, 0 when the flowing time is 0. -/
def averageFlow (gross flowing : Nat) : Nat := if flowing = 0 then 0 else gross * 60 / (flowing * 1000)

/-- Distance of two flows. -/
def distance (a b : Nat) : Nat := (a - b) + (b - a)

/-- The nearest point among those after number `k`, against the best so far; the lower flow stands first and
keeps a tie. -/
def nearestFrom (flow k : Nat) (best : Nat × LinPoint) : List LinPoint → Nat × LinPoint
  | [] => best
  | p :: rest =>
    if distance flow p.flow < distance flow best.2.flow then nearestFrom flow (k + 1) (k + 1, p) rest
    else nearestFrom flow (k + 1) best rest

/-- The point chosen, with its number from 1. -/
def nearestPoint (flow : Nat) (r : MeterRecord) : Nat × LinPoint :=
  nearestFrom flow 1 (1, r.firstPoint) r.morePoints

/-- Step 3: the run lies outside tolerance. -/
def outsideTolerance (gross observed : Nat) : Bool :=
  gross == 0 || decide (gross * 2 < distance (observed * 1000) gross * 100)

/-- Step 4: the new factor. -/
def provedFactor (old observed gross : Nat) : Nat := max 58982 (min (roundHalfUp (old * observed * 1000) gross) 72090)

/-- The figures PROVE RESULT computes. -/
def judgeRun (observed : Nat) (r : Run) (m : MeterRecord) : RunResult :=
  let flow := averageFlow r.indicated r.flowingTime
  let p := nearestPoint flow m
  { observed := observed
    averageFlow := flow
    point := p.1
    oldFactor := p.2.factor
    newFactor := if outsideTolerance r.indicated observed then p.2.factor
      else provedFactor p.2.factor observed r.indicated }

/-- PROVE RESULT (R163). -/
def doProveResult (hose observed : Nat) (s : State) : Reply :=
  match hoseOf hose with
  | none => answer .malformed s
  | some id =>
    let h := s.hoses.get id
    if 4000000 < observed then answer .malformed s
    else if h.state ≠ .proveHeld then answer .state s
    else
      match h.run with
      | none => answer .state s
      | some r =>
        let result := judgeRun observed r (s.store.meters.get id.meter)
        if !r.settled then answer .busy s
        else if outsideTolerance r.indicated observed then
          okWith (u8 (runOutcomeCode .rejected))
            (endRun id .rejected .idle (setHose id { h with run := some { r with result := some result } } s))
        else if !s.field.levels.sealClosed then answer .sealed s
        else beginWrite (.proveResult hose observed) (.factor id result) s

/-- PROVE ABORT (R162). -/
def doProveAbort (hose : Nat) (s : State) : Reply :=
  match hoseOf hose with
  | none => answer .malformed s
  | some id =>
    if provingState (s.hoses.get id).state then answer .ok (endRun id .aborted .idle s) else answer .state s

/-- PROVE READ (R164). -/
def doProveRead (hose : Nat) (s : State) : Reply :=
  match hoseOf hose with
  | none => answer .malformed s
  | some id =>
    let h := s.hoses.get id
    okWith
      (u8 (hoseStateCode h.state) ++ optional (fun r => runBytes r (flowingTimeNow (instant s) r)) h.run
        ++ (if provingState h.state then
              optional (fun d => u32 (d - instant s)) (h.readyTimer.or h.settleTimer)
            else [])) s

/-! ### Rows -/

/-- METROLOGY WRITE (R155). -/
def execMetrologyWrite (meter pulseVolume : Nat) (points : List LinPoint) (s : State) :
    Host.Outcome State Fault Refusal :=
  hostRow (.metrologyWrite meter pulseVolume points) (doMetrologyWrite meter pulseVolume points) s

/-- GRADE COEFFICIENT WRITE (R156). -/
def execGradeCoefficientWrite (grade : Grade) (alpha : Nat) (fallback : Int) (s : State) :
    Host.Outcome State Fault Refusal :=
  hostRow (.gradeCoefficientWrite grade alpha fallback) (doGradeCoefficientWrite grade alpha fallback) s

/-- The non-volatile write completes (R155, R156, R163). -/
def execStoreWriteComplete (s : State) : Host.Outcome State Fault Refusal := fieldRow storeWritten s

/-- METROLOGY READ (R158). -/
def execMetrologyRead (meter : Nat) (s : State) : Host.Outcome State Fault Refusal :=
  hostRow (.metrologyRead meter) (doMetrologyRead meter) s

/-- PROVE START (R159). -/
def execProveStart (hose flow nominal : Nat) (s : State) : Host.Outcome State Fault Refusal :=
  hostRow (.proveStart hose flow nominal) (doProveStart hose flow nominal) s

/-- PROVE RESULT (R163). -/
def execProveResult (hose observed : Nat) (s : State) : Host.Outcome State Fault Refusal :=
  hostRow (.proveResult hose observed) (doProveResult hose observed) s

/-- PROVE ABORT (R162). -/
def execProveAbort (hose : Nat) (s : State) : Host.Outcome State Fault Refusal :=
  hostRow (.proveAbort hose) (doProveAbort hose) s

/-- PROVE READ (R164). -/
def execProveRead (hose : Nat) (s : State) : Host.Outcome State Fault Refusal :=
  hostRow (.proveRead hose) (doProveRead hose) s

end Sys2Proof.Machine
end

