-- ==== Sys2Proof/Machine/Readers.lean ====
section
/-! DEFINITION. The reader ports (Chapter 2): receive FIFO, frame assembly and checking, silence supervision, tag
presence, and their two commands. -/

namespace Sys2Proof.Machine

/-! ### The receiver and its FIFO (R26, R27) -/

/-- The ones among the eight data bits. -/
def ones (data : Byte) : Nat := ([0, 1, 2, 3, 4, 5, 6, 7].filter (fun i => data.getLsbD i)).length

/-- The line condition of a character (R26): FRAMING with its stop bit at the space level, whatever its parity; PARITY where
the ones among data and parity bits are odd. -/
def lineCondition (data : Byte) (parity stop : Bool) : LineCondition :=
  if stop = false then .framing
  else if (ones data + (if parity then 1 else 0)) % 2 = 0 then .good
  else .parity

def entryCondition : LineCondition → EntryCondition
  | .good => .good
  | .parity => .parity
  | .framing => .framing

/-- Changes the newest entry. -/
def changeNewest (f : FifoEntry → FifoEntry) : List FifoEntry → List FifoEntry
  | [] => []
  | [e] => [f e]
  | e :: d :: rest => e :: changeNewest f (d :: rest)

/-- The receiver's memory of its line after this. -/
def remember (v : Receiver) (r : Reader) : Reader := { r with receiver := v }

/-- A character arrives (R27). The high-water mark rises with a character placed, and not with one discarded at a full FIFO:
after a clear at a full FIFO it stays 0, the model's choice (notes/assumptions/47.md). -/
def receiveCharacter (data : Byte) (c : LineCondition) (r : Reader) : Reader :=
  if r.fifo.length < Config.fifoDepth then
    { r with
      fifo := r.fifo ++ [{ data := data, condition := entryCondition c, events := [] }]
      highWater := max r.highWater (r.fifo.length + 1) }
  else { r with fifo := changeNewest (fun e => { e with condition := .overrun }) r.fifo }

/-- An event is attached to the newest entry (R27). -/
def attachEvent (v : LineEvent) (r : Reader) : Reader :=
  { r with fifo := changeNewest (fun e => { e with events := e.events ++ [v] }) r.fifo }

/-! ### Closed frames (R30 to R32) -/

/-- The code of a damage kind, LINE_ERROR's detail value (2.3). -/
def damageCode : Damage → Nat
  | .parity => 1
  | .framing => 2
  | .overrun => 3
  | .idle => 4
  | .lineBreak => 5
  | .length => 6

/-- What an undamaged closed frame holds. -/
inductive FrameContent where
  | rejected
  | tag (id quality : Nat)
  | empty
deriving DecidableEq, Repr

/-- A number sent most significant byte first. -/
def bigEndian (bytes : List Byte) : Nat := bytes.foldl (fun n b => n * 256 + b.toNat) 0

/-- The content of a TAG or EMPTY frame, without its check byte (R30, step 3). -/
def frameContent (body : List Byte) : FrameContent :=
  match body with
  | [len, kind] => if len.toNat = 2 ∧ kind.toNat = 2 then .empty else .rejected
  | [len, kind, a, b, c, d, e, f, q] =>
    let id := bigEndian [a, b, c, d, e, f]
    if len.toNat = 9 ∧ kind.toNat = 1 ∧ q.toNat ≤ 100 ∧ id ≠ 0 then .tag id q.toNat else .rejected
  | _ => .rejected

/-- Steps 2 and 3 of R30: the check over every byte before the check byte, then the content. -/
def judgeFrame (bytes : List Byte) : FrameContent :=
  match bytes.getLast? with
  | none => .rejected
  | some check => if crc8 bytes.dropLast = check then frameContent bytes.dropLast else .rejected

/-! ### Presence (R33 to R36) -/

/-- The port raises a tag event for its Hose Controller (R37). -/
def raiseTagEvent (v : TagEvent) (r : Reader) : Reader := { r with events := r.events ++ [v] }

/-- `tag` becomes the present tag with this read. -/
def becomePresent (tag quality clock now : Nat) (r : Reader) : Reader :=
  { r with
    present := some
      { tag := tag, quality := quality, firstSeen := clock, lastSeen := clock, expiry := now + r.grace }
    candidate := none }

/-- A qualifying read of `tag` (R34 to R36). -/
def qualifyingRead (tag quality clock now : Nat) (r : Reader) : Reader :=
  match r.present with
  | none =>
    if r.candidate = some tag then raiseTagEvent (.present tag) (becomePresent tag quality clock now r)
    else { r with candidate := some tag }
  | some p =>
    if p.tag = tag then
      { r with
        present := some { p with quality := quality, lastSeen := clock, expiry := now + r.grace }
        candidate := none }
    else if r.candidate = some tag then
      raiseTagEvent (.changed p.tag tag) (becomePresent tag quality clock now r)
    else { r with candidate := some tag }

/-- A good frame in presence tracking (R33). -/
def trackPresence (content : FrameContent) (clock now : Nat) (r : Reader) : Reader :=
  match content with
  | .tag id q => if r.minQuality ≤ q then qualifyingRead id q clock now r else { r with candidate := none }
  | .empty => { r with candidate := none }
  | .rejected => r

/-- The present tag is lost (R35). -/
def loseTag (r : Reader) : Reader :=
  match r.present with
  | none => r
  | some p => raiseTagEvent (.lost p.tag) { r with present := none }

/-- A damaged frame: counted, and LINE_ERROR at the eighth of a run (R30, R31). -/
def damagedFrame (h : HoseId) (d : Damage) (s : State) : State :=
  let r := s.readers.get h
  let r := { r with damaged := satAdd Config.countMax r.damaged 1 }
  if r.runCount + 1 < 8 then setReader h { r with runCount := r.runCount + 1 } s
  else report (.reader h) .lineError h.number (damageCode d) (setReader h { r with runCount := 0 } s)

/-- A closed frame without damage (R30 to R33). -/
def soundFrame (h : HoseId) (bytes : List Byte) (s : State) : State :=
  let r := s.readers.get h
  match judgeFrame bytes with
  | .rejected => setReader h { r with rejected := satAdd Config.countMax r.rejected 1 } s
  | .tag id q =>
    setReader h
      (trackPresence (.tag id q) (siteTime s) (instant s)
        { r with good := satAdd Config.countMax r.good 1, runCount := 0, condition := .live }) s
  | .empty =>
    setReader h
      (trackPresence .empty (siteTime s) (instant s)
        { r with good := satAdd Config.countMax r.good 1, runCount := 0, condition := .live }) s

/-- The frame in assembly is closed and judged; the silence timer starts again except at a break (R29, R32). -/
def closeFrame (h : HoseId) (byBreak : Bool) (f : ReaderFrame) (s : State) : State :=
  let r := s.readers.get h
  let s := setReader h
    { r with frame := none, silenceStart := if byBreak then r.silenceStart else instant s } s
  match f.damage with
  | some d => damagedFrame h d s
  | none => soundFrame h f.bytes s

/-! ### The assembler (R28, R29) -/

/-- The damage an entry's condition does to a frame in assembly. -/
def entryDamage : EntryCondition → Option Damage
  | .good => none
  | .parity => some .parity
  | .framing => some .framing
  | .overrun => some .overrun

/-- The first kind of damage stays. -/
def mark (d : Option Damage) (f : ReaderFrame) : ReaderFrame :=
  match f.damage with
  | some _ => f
  | none => { f with damage := d }

/-- An entry taken in HUNT becomes the length byte of a frame. -/
def startFrame (e : FifoEntry) : ReaderFrame :=
  if e.condition = .good ∧ inRange 2 30 e.data.toNat = true then
    { bytes := [e.data], expected := some e.data.toNat, damage := none }
  else { bytes := [e.data], expected := none, damage := some .length }

def putFrame (h : HoseId) (f : ReaderFrame) (s : State) : State :=
  setReader h { s.readers.get h with frame := some f } s

/-- The assembler takes one entry. -/
def takeEntry (h : HoseId) (e : FifoEntry) (s : State) : State :=
  match (s.readers.get h).frame with
  | none => putFrame h (startFrame e) s
  | some f =>
    let f' := mark (entryDamage e.condition) { f with bytes := f.bytes ++ [e.data] }
    match f.expected with
    | some n => if f'.bytes.length = n + 1 then closeFrame h false f' s else putFrame h f' s
    | none => if f.bytes.length < 31 then putFrame h f' s else putFrame h (startFrame e) (closeFrame h false f s)

/-- An idle event or a break reaches the assembler (R29). -/
def takeLineEvent (h : HoseId) (v : LineEvent) (s : State) : State :=
  match (s.readers.get h).frame with
  | none => s
  | some f =>
    match v with
    | .idle => closeFrame h false (mark (some .idle) f) s
    | .lineBreak => closeFrame h true (mark (some .lineBreak) f) s

/-- An event of the line: attached to the newest entry, or taken at once when the FIFO is empty (R27). -/
def lineEvent (h : HoseId) (v : LineEvent) (s : State) : State :=
  let r := s.readers.get h
  match r.fifo with
  | [] => takeLineEvent h v s
  | _ :: _ => setReader h (attachEvent v r) s

/-- A character is delivered; its gap has had no idle event yet (R26). -/
def deliverCharacter (h : HoseId) (data : Byte) (parity stop : Bool) (s : State) : State :=
  setReader h (remember .delivered (receiveCharacter data (lineCondition data parity stop) (s.readers.get h))) s

/-- The line has been at the space level for longer than a character: reported once for each break (R26). -/
def breakFound (h : HoseId) (returned : Bool) (s : State) : State :=
  let r := s.readers.get h
  if r.receiver = .breaking ∧ returned = false then s else lineEvent h .lineBreak (setReader h (remember .breaking r) s)

/-- The line has been at the mark level for three character times: an idle event, once for the gap after a character
(R26). After a break no character has been delivered in the gap, and none is reported. -/
def gapFound (h : HoseId) (s : State) : State :=
  let r := s.readers.get h
  let quiet := setReader h (remember .quiet r) s
  match r.receiver with
  | .delivered => lineEvent h .idle quiet
  | .quiet => quiet
  | .breaking => quiet

/-- The port's work is held while it hands events to its Hose Controller: a hose that takes an event finds the presence
record as that event left it (2.2, R37; notes/assumptions/2.md). -/
def handing (r : Reader) : Bool := !r.events.isEmpty

/-- The next entry leaves the FIFO for the assembler, with its events directly after it; none is removed while the port
hands events to its Hose Controller (2.2). -/
def takeFromFifo (h : HoseId) (s : State) : State :=
  let r := s.readers.get h
  if handing r then s
  else
    match r.fifo with
    | [] => s
    | e :: rest => e.events.foldl (fun s v => takeLineEvent h v s) (takeEntry h e (setReader h { r with fifo := rest } s))

/-! ### Expiries -/

/-- The 5 s silence timer has expired (R32). It starts again at its own expiry in every condition. -/
def becomeSilent (h : HoseId) (s : State) : State :=
  let s := reachInstant ((s.readers.get h).silenceStart + Config.silenceTime) s
  let r := { s.readers.get h with silenceStart := instant s }
  match r.condition with
  | .absent => setReader h r s
  | _ =>
    report (.reader h) .readerSilent h.number (if r.present.isSome then 1 else 0)
      (setReader h (loseTag { r with condition := .absent, candidate := none }) s)

/-- The silence timer's expiry, held while the port hands events to its Hose Controller. -/
def silenceExpires (h : HoseId) (s : State) : State := if handing (s.readers.get h) then s else becomeSilent h s

/-- The tag-loss grace of the present tag has run out (R35). -/
def graceRunsOut (h : HoseId) (s : State) : State :=
  match (s.readers.get h).present with
  | none => s
  | some p =>
    let s := reachInstant p.expiry s
    setReader h (loseTag (s.readers.get h)) s

/-- The grace's expiry, held while the port hands events to its Hose Controller. -/
def graceExpires (h : HoseId) (s : State) : State := if handing (s.readers.get h) then s else graceRunsOut h s

/-! ### Commands (R38, R39) -/

/-- The hose states in which a change of baud rate is refused (R38). -/
def requestOrSession (st : HoseState) : Bool := st == .referred || openState st

/-- READER SETUP (R38). -/
def doReaderSetup (port baud minQuality grace : Nat) (s : State) : Reply :=
  match hoseOf port with
  | none => answer .malformed s
  | some h =>
    if !readerFieldsOk baud minQuality grace then answer .malformed s
    else
      let r := s.readers.get h
      if r.baud = baud then answer .ok (setReader h { r with minQuality := minQuality, grace := grace } s)
      else if requestOrSession (s.hoses.get h).state then answer .busy s
      else
        answer .ok
          (setReader h
            { r with baud := baud, minQuality := minQuality, grace := grace, fifo := [], frame := none } s)

def presenceBytes (p : Presence) : List Byte :=
  tagBytes p.tag ++ u8 p.quality ++ u32 p.firstSeen ++ u32 p.lastSeen

/-- The fields READER STATUS reports, in the order R39 names them. -/
def readerBytes (now : Nat) (r : Reader) : List Byte :=
  u16 r.baud ++ u8 r.minQuality ++ u16 r.grace ++ u8 (readerConditionCode r.condition)
    ++ u16 (min (now - r.silenceStart) Config.countMax) ++ optional presenceBytes r.present
    ++ optional (fun t => tagBytes t ++ u8 1) r.candidate ++ u8 r.runCount ++ u16 r.good ++ u16 r.damaged
    ++ u16 r.rejected ++ u8 r.highWater

/-- The counts READER STATUS clears (R39). The high-water mark is 0 although entries may stand in the FIFO, until the next
character is placed: the model's choice beside R27 (notes/assumptions/47.md). -/
def clearCounts (r : Reader) : Reader := { r with good := 0, damaged := 0, rejected := 0, highWater := 0 }

/-- READER STATUS (R39). -/
def doReaderStatus (port : Nat) (clear : Bool) (s : State) : Reply :=
  match hoseOf port with
  | none => answer .malformed s
  | some h =>
    let r := s.readers.get h
    okWith (readerBytes (instant s) r) (if clear then setReader h (clearCounts r) s else s)

/-! ### Rows -/

/-- READER SETUP (R38). -/
def execReaderSetup (port baud minQuality grace : Nat) (s : State) : Host.Outcome State Fault Refusal :=
  hostRow (.readerSetup port baud minQuality grace) (doReaderSetup port baud minQuality grace) s

/-- READER STATUS (R39). -/
def execReaderStatus (port : Nat) (clear : Bool) (s : State) : Host.Outcome State Fault Refusal :=
  hostRow (.readerStatus port clear) (doReaderStatus port clear) s

/-- The receiver delivers a character (R26, R27). -/
def execReceiverCharacter (h : HoseId) (data : Byte) (tail : CharacterTail) (s : State) :
    Host.Outcome State Fault Refusal :=
  fieldRow (deliverCharacter h data tail.parity tail.stop) s

/-- The line is held at the space level (R26, R29). -/
def execLineBreak (line : HeldLine) (s : State) : Host.Outcome State Fault Refusal :=
  fieldRow (breakFound line.port line.returned) s

/-- The line stays at the mark level for three character times (R26, R29). -/
def execIdleEvent (h : HoseId) (s : State) : Host.Outcome State Fault Refusal := fieldRow (gapFound h) s

/-- The assembler takes the next FIFO entry (R28). -/
def execFifoEntryTaken (h : HoseId) (s : State) : Host.Outcome State Fault Refusal := fieldRow (takeFromFifo h) s

/-- The silence timer expires (R32). -/
def execSilenceTimerExpiry (h : HoseId) (s : State) : Host.Outcome State Fault Refusal :=
  fieldRow (silenceExpires h) s

/-- The grace of the present tag expires (R35). -/
def execGraceExpiry (h : HoseId) (s : State) : Host.Outcome State Fault Refusal := fieldRow (graceExpires h) s

end Sys2Proof.Machine
end

