-- ==== Sys2Proof/Machine/Resets.lean ====
section
/-! DEFINITION. Resets, retention and the power-fail warning (11.4), with what a warm and a cold reset leave in every
block. -/

namespace Sys2Proof.Machine

/-! ### Blocks at a warm reset -/

/-- Both duties are 0 and the window runs are 0 after a reset (R104, R134). -/
def quietHose (h : Hose) : Hose :=
  { h with outputs := { h.outputs with active := 0 }, lowFlowRun := 0, overspeedRun := 0, paired := none }

/-- A hose at a warm reset (R95, R111, R134, R162). -/
def warmHose (id : HoseId) (s : State) : State :=
  let s := stopRewind id .interrupted (restHose id s)
  let h := s.hoses.get id
  let s :=
    if h.state = .referred then setHose id { h with state := .idle, waiting := none, referTimer := none } s
    else if openState h.state then closeSession id (some .reset) s
    else if provingState h.state then endRun id .reset (if h.stopFaultFound then .locked else .idle) s
    else s
  setHose id (quietHose (s.hoses.get id)) s

/-- An order at a warm reset (R178). -/
def warmOrder (time : Nat) (o : LoadOrder) : LoadOrder :=
  match o.state with
  | .armed => { o with state := .cancelled, endCause := some .reset, completed := some time }
  | .loading =>
    { o with
      state := .complete
      endCause := some .reset
      flowEnd := some time
      docketVariance := some (docketVarianceOf o)
      completed := some time }
  | .settling =>
    { o with
      state := .complete
      endCause := some .reset
      docketVariance := some (docketVarianceOf o)
      completed := some time }
  | _ => o

/-- The Load Controller at a warm reset: valve closed, timers stopped, lock kept, orders ended, the active
order's compartment back IN_SERVICE. -/
def warmLoads (s : State) : State :=
  let s := match activeOrder s with
    | none => s
    | some (_, o) => releaseCompartment o.compartment s
  setLoads
    { s.loads with
      orders := s.loads.orders.map (fun p => (p.1, warmOrder (siteTime s) p.2))
      valveOpen := false
      beforeEnded := false
      armTimer := none
      idleTimer := none
      settleTimer := none
      watch := none } s

/-- A channel at a warm reset (R152). -/
def warmChannel (c : Channel) : Channel :=
  { Channel.cold with
    pinA := c.pinA
    pinB := c.pinB
    unattributed := c.unattributed
    totaliser := c.totaliser
    wraps := c.wraps }

/-- A port at a warm reset keeps its setup (R40). Tag events not yet taken are dropped with the rest: the model's choice
(notes/assumptions/39.md). -/
def warmReader (now : Nat) (r : Reader) : Reader :=
  { Reader.cold now with baud := r.baud, minQuality := r.minQuality, grace := r.grace }

/-- A meter of a store found damaged (R157). -/
def restoredMeter (r : MeterRecord) : MeterRecord :=
  countChange { MeterRecord.shipped with changes := r.changes }

/-- The check of the store at a reset; a write in progress is lost whole (R155, R157). -/
def checkStore (st : MetrologyStore) : MetrologyStore :=
  if st.damaged then
    { meters := st.meters.map restoredMeter
      grades := ByGrade.all GradeRecord.shipped
      restored := true
      damaged := false
      write := none }
  else { st with write := none }

/-- The Timebase at a warm reset (R179, R180, R183). A hold-off that runs is stopped, so that no power-fail hold follows the
reset: the model's choice (notes/assumptions/25.md). -/
def warmTimebase (t : Timebase) : Timebase :=
  { t with window := 200, pendingWindow := 200, windowStart := t.now, holdOff := none }

/-- Every gauge in flight is aborted (R77). -/
def abortGauges (s : State) : State :=
  abortGauge .four (abortGauge .three (abortGauge .two (abortGauge .one s)))

/-! ### Warm reset -/

/-- A warm reset sets every block to its reset state; DRIVE PERMIT is withheld meanwhile (R110), and the notice
set is emptied with its mask full (R188). A compartment goes on showing the probe sample of before the reset until the
first new sampling: the model's choice (notes/assumptions/4.md). -/
def beginWarm (s : State) : State :=
  let s := warmLoads (abortGauges (warmHose .h3 (warmHose .h2 (warmHose .h1 s))))
  { s with
    channels := s.channels.map warmChannel
    readers := s.readers.map (warmReader s.timebase.now)
    port := Port.cold
    store := checkStore s.store
    timebase := warmTimebase s.timebase
    field := (clearChanges s).field
    notices := []
    noticeMask := BitVec.ofNat 8 255
    drivePermit := false }

/-- The end of a reset: its record, the window timer started, RESTARTED, DRIVE PERMIT evaluated afresh. -/
def endReset (kind : ResetKind) (cause : ResetCause) (s : State) : State :=
  evaluatePermit
    (raise .restarted
      { s with
        timebase :=
          { s.timebase with
            windowStart := s.timebase.now
            lastReset := { kind := kind, cause := cause, count := s.timebase.count } }
        supply := { s.supply with power := .running } })

def warmReset (cause : ResetCause) (s : State) : State := endReset .warm cause (beginWarm s)

/-- A rollover instant lies after `a` and at or before `b`, across a wrap of the count where there was one. -/
def instantsPassed (r a b : Nat) : Bool :=
  if a ≤ b then instantBetween r a b
  else instantBetween r a (Config.clockModulus - 1) || decide (0 < instantsUpTo r b)

/-- The rollover of a power return (R181). -/
def returnRollover (s : State) : State :=
  if s.timebase.clockSet && instantsPassed s.timebase.rolloverSecond s.timebase.lastCounted s.timebase.count then
    rollover s
  else s

/-! ### Cold reset -/

/-- A cold reset sets every block to its cold reset state. The store is kept, checked, and every change counter
rises (R152, R153, R157); pins, probes and the instant are the world's; the loss latch clears (R183). -/
def coldReset (s : State) : State :=
  let st := checkStore s.store
  evaluatePermit
    { State.reset with
      readers := ByHose.all (Reader.cold s.timebase.now)
      field := (clearChanges s).field
      channels := s.channels.map (fun c => { Channel.cold with pinA := c.pinA, pinB := c.pinB })
      store := { st with meters := st.meters.map countChange }
      timebase := { Timebase.cold with now := s.timebase.now, windowStart := s.timebase.now }
      pending := s.pending }

/-! ### Power (R183) -/

/-- Power-up: cold when the loss latch is set, warm otherwise. -/
def powerUp (s : State) : State :=
  if s.supply.lossLatch then coldReset s else returnRollover (warmReset .powerUp s)

/-- Without main power every drive is off and a running reel has stopped. -/
def unpoweredHose (id : HoseId) (s : State) : State :=
  let s := stopRewind id .interrupted (restHose id s)
  setHose id { s.hoses.get id with outputs := Outputs.rest } s

def mainPowerLost (s : State) : State :=
  let s := unpoweredHose .h3 (unpoweredHose .h2 (unpoweredHose .h1 s))
  { s with
    loads := { s.loads with valveOpen := false }
    drivePermit := false
    supply := { s.supply with power := .unpowered } }

/-- The warning closes an open session with cause POWER (R125). -/
def powerCloses (id : HoseId) (s : State) : State :=
  if openState (s.hoses.get id).state then closeSession id (some .power) s else s

/-- The warning becomes ASSERTED: sessions close, the hold-off starts. Hoses 1 to 3 take it in this order: the model's choice
(notes/assumptions/48.md). -/
def warningAsserted (s : State) : State :=
  let s := powerCloses .h3 (powerCloses .h2 (powerCloses .h1 s))
  setTimebase { s.timebase with holdOff := some (instant s + Config.holdOffTime) } s

/-- The warning becomes RELEASED before the hold-off expires: no reset follows. -/
def warningReleased (s : State) : State := setTimebase { s.timebase with holdOff := none } s

/-- A change of the power-fail warning; its release completes a held reset. -/
def powerFailWarning (asserted : Bool) (s : State) : State :=
  let t := switchStep s.field.levels.powerFail asserted placePowerFail
    (if asserted then warningAsserted else warningReleased) s
  if t.supply.power = .held ∧ t.field.levels.powerFail = false then endReset .warm .powerFail t else t

/-- The hold-off expires: a warm reset begins, held while the warning stays ASSERTED. -/
def holdOffExpires (s : State) : State :=
  let s := beginWarm s
  if s.field.levels.powerFail then { s with supply := { s.supply with power := .held } }
  else endReset .warm .powerFail s

/-- The hold-off is taken by a running controller whose hold-off runs. -/
def holdOffStep (s : State) : State :=
  match s.supply.power with
  | .running => expire s.timebase.holdOff holdOffExpires s
  | .held => s
  | .unpowered => s

/-! ### Rows -/

/-- RESTART (R193): a warm reset, without a response. -/
def execRestart (s : State) : Host.Outcome State Fault Refusal :=
  hostRow .restart (fun s => (warmReset .restart s, none)) s

/-- The RESET pin (R183). -/
def execResetPin (s : State) : Host.Outcome State Fault Refusal := fieldRow (warmReset .resetPin) s

/-- Power-up (R183). -/
def execPowerUp (s : State) : Host.Outcome State Fault Refusal := .next (powerUp s)

/-- The retention supply falls below its hold level (R183). -/
def execRetentionSupplyLoss (s : State) : Host.Outcome State Fault Refusal :=
  .next { s with supply := { s.supply with lossLatch := true } }

/-- The power-fail warning (R125, R183). -/
def execPowerFailWarning (asserted : Bool) (s : State) : Host.Outcome State Fault Refusal :=
  .next (powerFailWarning asserted s)

/-- The 20 ms hold-off expires (R183). -/
def execPowerFailHoldOffExpiry (s : State) : Host.Outcome State Fault Refusal := .next (holdOffStep s)

/-- Main power is lost (R183). -/
def execMainPowerLoss (s : State) : Host.Outcome State Fault Refusal := .next (mainPowerLost s)

end Sys2Proof.Machine
end

