-- ==== Sys2Proof/Machine/Timebase.lean ====
section
/-! DEFINITION. The Timebase's commands and the site clock (Chapter 11). -/

namespace Sys2Proof.Machine

/-- WINDOW SET (R179): the clamped length becomes pending. -/
def doWindowSet (length : Nat) (s : State) : Reply :=
  let w := max 50 (min length 1000)
  okWith (u16 w) (setTimebase { s.timebase with pendingWindow := w } s)

/-- The count a CLOCK SET writes; it is also the last one counted with main power. -/
def setCount (count : Nat) (s : State) : State :=
  setTimebase { s.timebase with count := count, lastCounted := count, clockSet := true } s

/-- CLOCK SET (R180). -/
def doClockSet (count : Nat) (s : State) : Reply :=
  if Config.clockModulus ≤ count then answer .malformed s
  else
    let old := s.timebase.count
    if s.timebase.clockSet then
      let s := setCount count s
      okWith (u32 old)
        (if old < count && instantBetween s.timebase.rolloverSecond old count then rollover s else s)
    else answer .ok (setCount count s)

/-- ROLLOVER SET (R180). -/
def doRolloverSet (second : Nat) (s : State) : Reply :=
  if second < Config.dayLength then answer .ok (setTimebase { s.timebase with rolloverSecond := second } s)
  else answer .malformed s

/-- NOT_SET is listed first (R180). -/
def clockConditionByte (set : Bool) : List Byte := flagByte set

/-- CLOCK READ (R180). -/
def doClockRead (s : State) : Reply :=
  let t := s.timebase
  okWith
    (u32 t.count ++ clockConditionByte t.clockSet ++ u32 t.rolloverSecond ++ u32 (t.count % Config.dayLength)
      ++ optional u32 t.lastRollover ++ u8 (resetKindCode t.lastReset.kind)
      ++ u8 (resetCauseCode t.lastReset.cause) ++ u32 t.lastReset.count) s

/-- The count rises by 1 (R180). -/
def countSecond (s : State) : State :=
  setTimebase { s.timebase with count := (s.timebase.count + 1) % Config.clockModulus } s

/-- The new second of day is the rollover second. -/
def atRollover (s : State) : Bool := s.timebase.count % Config.dayLength == s.timebase.rolloverSecond

/-- A second counted with main power present: it is kept as the last, and may be a rollover. -/
def poweredSecond (s : State) : State :=
  let s := countSecond s
  let s := setTimebase { s.timebase with lastCounted := s.timebase.count } s
  if s.timebase.clockSet && atRollover s then rollover s else s

/-- The site clock's second (R180, R182). A controller held in a power failure's reset has main power and
counts. -/
def clockSecond (s : State) : State :=
  match s.supply.power with
  | .running => evaluatePermit (poweredSecond s)
  | .held => poweredSecond s
  | .unpowered => countSecond s

/-! ### Rows -/

/-- WINDOW SET (R179). -/
def execWindowSet (length : Nat) (s : State) : Host.Outcome State Fault Refusal :=
  hostRow (.windowSet length) (doWindowSet length) s

/-- CLOCK SET (R180). -/
def execClockSet (count : Nat) (s : State) : Host.Outcome State Fault Refusal :=
  hostRow (.clockSet count) (doClockSet count) s

/-- ROLLOVER SET (R180). -/
def execRolloverSet (second : Nat) (s : State) : Host.Outcome State Fault Refusal :=
  hostRow (.rolloverSet second) (doRolloverSet second) s

/-- CLOCK READ (R180). -/
def execClockRead (s : State) : Host.Outcome State Fault Refusal := hostRow .clockRead doClockRead s

/-- The site clock counts a second (R180). -/
def execSiteClockSecond (s : State) : Host.Outcome State Fault Refusal := .next (clockSecond s)

end Sys2Proof.Machine
end

