-- ==== Sys2Proof/Machine/Dispatch.lean ====
section
/-! DEFINITION. The dispatch: one arm for each command of the table, each one call of its meaning. -/

namespace Sys2Proof.Machine

def exec (i : Instr) (s : State) : Host.Outcome State Fault Refusal :=
  match i with
  | .machineInstall f => Sys2Proof.Machine.execMachineInstall f s
  | .machineAmendChange slot f => Sys2Proof.Machine.execMachineAmendChange slot f s
  | .machineAmendRewrite slot f used overrun fills => Sys2Proof.Machine.execMachineAmendRewrite slot f used overrun fills s
  | .machineRead slot => Sys2Proof.Machine.execMachineRead slot s
  | .machineFind key => Sys2Proof.Machine.execMachineFind key s
  | .machineSuspend slot => Sys2Proof.Machine.execMachineSuspend slot s
  | .machineReinstate slot => Sys2Proof.Machine.execMachineReinstate slot s
  | .machineRetire slot => Sys2Proof.Machine.execMachineRetire slot s
  | .tagQuery tag => Sys2Proof.Machine.execTagQuery tag s
  | .rangeWrite entry e => Sys2Proof.Machine.execRangeWrite entry e s
  | .rangeRead entry => Sys2Proof.Machine.execRangeRead entry s
  | .defaultPolicySet policy => Sys2Proof.Machine.execDefaultPolicySet policy s
  | .readerSetup port baud minQuality grace => Sys2Proof.Machine.execReaderSetup port baud minQuality grace s
  | .readerStatus port clear => Sys2Proof.Machine.execReaderStatus port clear s
  | .accountOpen number tier limit => Sys2Proof.Machine.execAccountOpen number tier limit s
  | .accountAmendChange slot number tier limit => Sys2Proof.Machine.execAccountAmendChange slot number tier limit s
  | .accountAmendRewrite slot number tier limit balance period current => Sys2Proof.Machine.execAccountAmendRewrite slot number tier limit balance period current s
  | .accountRead key => Sys2Proof.Machine.execAccountRead key s
  | .accountStop slot => Sys2Proof.Machine.execAccountStop slot s
  | .accountResume slot => Sys2Proof.Machine.execAccountResume slot s
  | .accountRetire slot => Sys2Proof.Machine.execAccountRetire slot s
  | .settle slot amount => Sys2Proof.Machine.execSettle slot amount s
  | .periodClose slot => Sys2Proof.Machine.execPeriodClose slot s
  | .statementRead slot => Sys2Proof.Machine.execStatementRead slot s
  | .statementRelease slot period => Sys2Proof.Machine.execStatementRelease slot period s
  | .priceWrite tier grade price => Sys2Proof.Machine.execPriceWrite tier grade price s
  | .priceRead => Sys2Proof.Machine.execPriceRead s
  | .compartmentSetup comp grade capacity threshold => Sys2Proof.Machine.execCompartmentSetup comp grade capacity threshold s
  | .compartmentService comp target => Sys2Proof.Machine.execCompartmentService comp target s
  | .restate comp source => Sys2Proof.Machine.execRestate comp source s
  | .compartmentRead comp => Sys2Proof.Machine.execCompartmentRead comp s
  | .strapWrite comp points => Sys2Proof.Machine.execStrapWrite comp points s
  | .strapRead comp => Sys2Proof.Machine.execStrapRead comp s
  | .gauge comp => Sys2Proof.Machine.execGauge comp s
  | .authoriseManual hose machine tank preset => Sys2Proof.Machine.execAuthoriseManual hose machine tank preset s
  | .referReplyAccept hose account grades limit => Sys2Proof.Machine.execReferReplyAccept hose account grades limit s
  | .referReplyRefuse hose => Sys2Proof.Machine.execReferReplyRefuse hose s
  | .referReplyRecheck hose => Sys2Proof.Machine.execReferReplyRecheck hose s
  | .hoseSetup hose f => Sys2Proof.Machine.execHoseSetup hose f s
  | .hoseRead hose => Sys2Proof.Machine.execHoseRead hose s
  | .hoseService hose target => Sys2Proof.Machine.execHoseService hose target s
  | .fieldStatus => Sys2Proof.Machine.execFieldStatus s
  | .rewind hose => Sys2Proof.Machine.execRewind hose s
  | .hoseStop hose => Sys2Proof.Machine.execHoseStop hose s
  | .collect hose number => Sys2Proof.Machine.execCollect hose number s
  | .sessionRead hose => Sys2Proof.Machine.execSessionRead hose s
  | .meterRead meter => Sys2Proof.Machine.execMeterRead meter s
  | .metrologyWrite meter pulseVolume points => Sys2Proof.Machine.execMetrologyWrite meter pulseVolume points s
  | .gradeCoefficientWrite grade alpha fallback => Sys2Proof.Machine.execGradeCoefficientWrite grade alpha fallback s
  | .storeWriteComplete => Sys2Proof.Machine.execStoreWriteComplete s
  | .metrologyRead meter => Sys2Proof.Machine.execMetrologyRead meter s
  | .proveStart hose flow nominal => Sys2Proof.Machine.execProveStart hose flow nominal s
  | .proveResult hose observed => Sys2Proof.Machine.execProveResult hose observed s
  | .proveAbort hose => Sys2Proof.Machine.execProveAbort hose s
  | .proveRead hose => Sys2Proof.Machine.execProveRead hose s
  | .loadCreate comp grade expected docket => Sys2Proof.Machine.execLoadCreate comp grade expected docket s
  | .loadArm slot => Sys2Proof.Machine.execLoadArm slot s
  | .loadCancel slot => Sys2Proof.Machine.execLoadCancel slot s
  | .loadAbort slot => Sys2Proof.Machine.execLoadAbort slot s
  | .loadRead slot => Sys2Proof.Machine.execLoadRead slot s
  | .loadRetire slot => Sys2Proof.Machine.execLoadRetire slot s
  | .inletSetup idle arm settle ullage => Sys2Proof.Machine.execInletSetup idle arm settle ullage s
  | .inletRead => Sys2Proof.Machine.execInletRead s
  | .windowSet length => Sys2Proof.Machine.execWindowSet length s
  | .clockSet count => Sys2Proof.Machine.execClockSet count s
  | .rolloverSet second => Sys2Proof.Machine.execRolloverSet second s
  | .clockRead => Sys2Proof.Machine.execClockRead s
  | .faultRead bank => Sys2Proof.Machine.execFaultRead bank s
  | .faultControl bank enable => Sys2Proof.Machine.execFaultControl bank enable s
  | .faultClear bank => Sys2Proof.Machine.execFaultClear bank s
  | .noticeNext => Sys2Proof.Machine.execNoticeNext s
  | .noticeMask mask => Sys2Proof.Machine.execNoticeMask mask s
  | .restart => Sys2Proof.Machine.execRestart s
  | .identify => Sys2Proof.Machine.execIdentify s
  | .commandTransaction opening frame => Sys2Proof.Machine.execCommandTransaction opening frame s
  | .readTransaction opening count => Sys2Proof.Machine.execReadTransaction opening count s
  | .linkReset => Sys2Proof.Machine.execLinkReset s
  | .resetPin => Sys2Proof.Machine.execResetPin s
  | .powerUp => Sys2Proof.Machine.execPowerUp s
  | .retentionSupplyLoss => Sys2Proof.Machine.execRetentionSupplyLoss s
  | .powerFailWarning asserted => Sys2Proof.Machine.execPowerFailWarning asserted s
  | .powerFailHoldOffExpiry => Sys2Proof.Machine.execPowerFailHoldOffExpiry s
  | .emergencyStop asserted => Sys2Proof.Machine.execEmergencyStop asserted s
  | .parkBrake applied => Sys2Proof.Machine.execParkBrake applied s
  | .nozzleSwitch hose offHook => Sys2Proof.Machine.execNozzleSwitch hose offHook s
  | .startInput hose asserted => Sys2Proof.Machine.execStartInput hose asserted s
  | .stowSwitch hose closed => Sys2Proof.Machine.execStowSwitch hose closed s
  | .inletCoupling coupled => Sys2Proof.Machine.execInletCoupling coupled s
  | .highLevelSwitch comp high => Sys2Proof.Machine.execHighLevelSwitch comp high s
  | .sealSwitch closed => Sys2Proof.Machine.execSealSwitch closed s
  | .receiverCharacter port data tail => Sys2Proof.Machine.execReceiverCharacter port data tail s
  | .lineBreak line => Sys2Proof.Machine.execLineBreak line s
  | .idleEvent port => Sys2Proof.Machine.execIdleEvent port s
  | .fifoEntryTaken port => Sys2Proof.Machine.execFifoEntryTaken port s
  | .silenceTimerExpiry port => Sys2Proof.Machine.execSilenceTimerExpiry port s
  | .graceExpiry port => Sys2Proof.Machine.execGraceExpiry port s
  | .tagPresent hose tag => Sys2Proof.Machine.execTagPresent hose tag s
  | .tagLost hose tag => Sys2Proof.Machine.execTagLost hose tag s
  | .tagChanged hose old new => Sys2Proof.Machine.execTagChanged hose old new s
  | .referDeadlineExpiry hose => Sys2Proof.Machine.execReferDeadlineExpiry hose s
  | .readyTimerExpiry hose => Sys2Proof.Machine.execReadyTimerExpiry hose s
  | .resumeTimerExpiry hose => Sys2Proof.Machine.execResumeTimerExpiry hose s
  | .settleTimerExpiry hose => Sys2Proof.Machine.execSettleTimerExpiry hose s
  | .rewindTimerExpiry hose => Sys2Proof.Machine.execRewindTimerExpiry hose s
  | .proveReadyTimeout hose => Sys2Proof.Machine.execProveReadyTimeout hose s
  | .proveSettleTimerExpiry hose => Sys2Proof.Machine.execProveSettleTimerExpiry hose s
  | .armTimerExpiry => Sys2Proof.Machine.execArmTimerExpiry s
  | .inletIdleTimerExpiry => Sys2Proof.Machine.execInletIdleTimerExpiry s
  | .loadSettleTimerExpiry => Sys2Proof.Machine.execLoadSettleTimerExpiry s
  | .windowExpiry temperatures => Sys2Proof.Machine.execWindowExpiry temperatures s
  | .forwardPulse meter capture => Sys2Proof.Machine.execForwardPulse meter capture s
  | .reversePulse meter => Sys2Proof.Machine.execReversePulse meter s
  | .illegalTransition meter => Sys2Proof.Machine.execIllegalTransition meter s
  | .pwmPeriodStart => Sys2Proof.Machine.execPwmPeriodStart s
  | .probeSample samples => Sys2Proof.Machine.execProbeSample samples s
  | .siteClockSecond => Sys2Proof.Machine.execSiteClockSecond s
  | .pulserQuarterStep meter forward => Sys2Proof.Machine.execPulserQuarterStep meter forward s
  | .lineTemperatureValidityChange hose reading => Sys2Proof.Machine.execLineTemperatureValidityChange hose reading s
  | .mainPowerLoss => Sys2Proof.Machine.execMainPowerLoss s

end Sys2Proof.Machine
end

