-- ==== Sys2Proof/Machine/Idle.lean ====
section
/-! DEFINITION. What the controller does by itself while no command waits: it takes its own pending work, or its
1 ms tick passes. -/

namespace Sys2Proof.Machine

/-- The first port whose FIFO holds an entry: the assembler takes it (R28). -/
def readerWork (s : State) : Option Instr :=
  if !s.readers.h1.fifo.isEmpty then some (.fifoEntryTaken .h1)
  else if !s.readers.h2.fifo.isEmpty then some (.fifoEntryTaken .h2)
  else if !s.readers.h3.fifo.isEmpty then some (.fifoEntryTaken .h3)
  else none

/-- The first tag event a port has raised, as the row in which its Hose Controller takes it (R37). -/
def tagEventRow (h : HoseId) (events : List TagEvent) : Option Instr :=
  match events with
  | [] => none
  | .present t :: _ => some (.tagPresent h t)
  | .lost t :: _ => some (.tagLost h t)
  | .changed t u :: _ => some (.tagChanged h t u)

def tagWork (s : State) : Option Instr :=
  (tagEventRow .h1 s.readers.h1.events).or
    ((tagEventRow .h2 s.readers.h2.events).or (tagEventRow .h3 s.readers.h3.events))

/-- The command the port has taken, unless a store write holds it (R190). -/
def portWork (s : State) : Option Instr :=
  match s.port.executing, s.store.write with
  | some t, none =>
    match t.todo with
    | .run c => some c
    | .reply _ => none
  | _, _ => none

/-- The controller's own pending work, while it runs. A raised tag event comes first, since its port takes no FIFO entry
before its Hose Controller has it (2.2, R37). -/
def ownWork (s : State) : Option Instr :=
  match s.supply.power with
  | .running => (tagWork s).or ((readerWork s).or (portWork s))
  | .held => none
  | .unpowered => none

/-- The 1 ms tick of a running controller: the instant, and 1,000 of the capture counter's µs (R179). -/
def tick (s : State) : State :=
  match s.supply.power with
  | .running => setTimebase (passTicks 1 s.timebase) s
  | .held => s
  | .unpowered => s

/-- What happens when no command waits. -/
def idle (s : State) : Host.Outcome State Fault Refusal :=
  match ownWork s with
  | none => .next (tick s)
  | some c => exec c s

end Sys2Proof.Machine
end

