-- ==== Sys2Proof/Safety.lean ====
section
/-! DEFINITION. The terms in which the statements speak: a controller ready for a host command, what a completed
command leaves, and the laws of the state that a safe run keeps. -/

namespace Sys2Proof.Machine

/-- The controller runs and no store write holds its port (R155, R183): a host command is executed. -/
abbrev Ready (s : State) : Prop := s.supply.power = .running ∧ s.store.write = none

/-- What host command `c` leaves once it has completed with status `st` and payload `payload`, `s` being the state
its own effect made: the answer goes to the port (R190) and DRIVE PERMIT is evaluated (R110). -/
def completed (c : Instr) (st : Status) (payload : List Byte) (s : State) : State :=
  evaluatePermit (finish c ⟨st, payload⟩ s)

/-- The outcome of such a completion. -/
def completes (c : Instr) (st : Status) (payload : List Byte) (s : State) : Host.Outcome State Fault Refusal :=
  .next (completed c st payload s)

/-- What an event of the field or the Timebase leaves, `s` being the state its own effect made. -/
def happens (s : State) : Host.Outcome State Fault Refusal := .next (evaluatePermit s)

/-- What the first check that fails names, the checks standing in the order in which they are taken. -/
def firstFailing {α : Type} (checks : List (Bool × α)) : Option α :=
  match checks with
  | [] => none
  | (true, _) :: rest => firstFailing rest
  | (false, x) :: _ => some x

/-- Host command `c` at `s` with its checks: the first that fails answers it and changes nothing; otherwise it completes
with `st` and `payload`, and `t` is the state its effect makes. -/
def checked (c : Instr) (checks : List (Bool × Status)) (s : State) (st : Status) (payload : List Byte) (t : State) :
    Host.Outcome State Fault Refusal :=
  match firstFailing checks with
  | some e => completes c e [] s
  | none => completes c st payload t

/-- What a look-up of an ACTIVE or SUSPENDED machine record that fails verification leaves (R23): the record QUARANTINED,
RECORD_CHECK reported with the slot and detail 0. -/
def corruptMachine (slot : Nat) (m : MachineRecord) (s : State) : State :=
  report .table .recordCheck slot 0 { s with machines := tableSet s.machines slot { m with state := .quarantined } }

/-- The same of an OPEN or STOPPED account record (R58), with detail 1. -/
def corruptAccount (slot : Nat) (a : AccountRecord) (s : State) : State :=
  report .table .recordCheck slot 1 { s with accounts := tableSet s.accounts slot { a with state := .quarantined } }

/-- R110, whenever the controller runs: DRIVE PERMIT is asserted exactly when all stow switches are closed, no hose
holds an open session, no reel motor runs, the inlet is uncoupled and no load order is LOADING or SETTLING. -/
def PermitLaw (s : State) : Prop :=
  s.supply.power = .running →
    (s.drivePermit = true ↔
      (∀ id : HoseId, s.field.levels.stow.get id = true)
      ∧ (∀ id : HoseId,
        [HoseState.ready, .flowing, .slowing, .paused, .stopping].contains (s.hoses.get id).state = false)
      ∧ (∀ id : HoseId, (s.hoses.get id).outputs.reel = false)
      ∧ s.field.levels.coupled = false
      ∧ ∀ p ∈ s.loads.orders, p.2.state ≠ .loading ∧ p.2.state ≠ .settling)

/-- A table of `size` slots is in its canonical form: slots strictly rising, each below `size`. -/
def tableWf {α : Type} (size : Nat) (t : Table α) : Bool := tableRising t && t.all (fun p => decide (p.1 < size))

/-- Machine Table, Account Table and Load Controller hold slots that exist, each once (1.1, 3.1, 10.1). -/
abbrev TablesWf (s : State) : Prop :=
  tableWf Config.machineSlots s.machines = true ∧ tableWf Config.accountSlots s.accounts = true
    ∧ tableWf Config.loadSlots s.loads.orders = true

/-- R62: in every compartment book equals base + loaded total − dispensed total. -/
def BookLaw (s : State) : Prop :=
  ∀ c : CompId, (s.compartments.get c).book =
    (s.compartments.get c).base + (s.compartments.get c).loaded - (s.compartments.get c).dispensed

/-- R166: at most one order is ARMED, LOADING or SETTLING; a compartment is LOADING exactly when it is that order's; the
inlet valve is open only while an order is LOADING. With them, R171 and R173: the arm timer runs only in ARMED and
LOADING, the settle timer only in SETTLING. -/
def LoadLaw (s : State) : Prop :=
  (∀ p ∈ s.loads.orders, ∀ q ∈ s.loads.orders, activeState p.2.state = true → activeState q.2.state = true → p = q)
  ∧ (∀ c : CompId, (s.compartments.get c).state = .loading ↔
      ∃ p ∈ s.loads.orders, activeState p.2.state = true ∧ p.2.compartment = c)
  ∧ (s.loads.valveOpen = true → ∃ p ∈ s.loads.orders, p.2.state = .loading)
  ∧ (s.loads.armTimer.isSome = true → ∃ p ∈ s.loads.orders, p.2.state = .armed ∨ p.2.state = .loading)
  ∧ (s.loads.settleTimer.isSome = true → ∃ p ∈ s.loads.orders, p.2.state = .settling)

/-- The totalisers and their wrap counts, meters 1 to 4 (8.1). -/
def totals (s : State) : List (Nat × Nat) := s.channels.toList.map (fun c => (c.totaliser, c.wraps))

/-- The parameters of the Metrology Store: its meters and its grades (9.1). -/
def parameters (s : State) : ByFour MeterRecord × ByGrade GradeRecord := (s.store.meters, s.store.grades)

end Sys2Proof.Machine
end

