-- ==== Sys2Proof/WellFormed.lean ====
section
/-! DEFINITION. Which commands are well formed: a host command whose every field lies in the range its rule states, so
that no check on its fields alone answers MALFORMED; an event that carries a reading its probe, its reader or its counter
can give. -/

namespace Sys2Proof.Machine

/-- The commands a host sends in a command frame (Chapter 12); the others are events of the link, the pins, the readers,
the timers and the Timebase. -/
def fromHost : Instr → Bool
  | .machineInstall _ => true
  | .machineAmendChange _ _ => true
  | .machineAmendRewrite _ _ _ _ _ => true
  | .machineRead _ => true
  | .machineFind _ => true
  | .machineSuspend _ => true
  | .machineReinstate _ => true
  | .machineRetire _ => true
  | .tagQuery _ => true
  | .rangeWrite _ _ => true
  | .rangeRead _ => true
  | .defaultPolicySet _ => true
  | .readerSetup _ _ _ _ => true
  | .readerStatus _ _ => true
  | .accountOpen _ _ _ => true
  | .accountAmendChange _ _ _ _ => true
  | .accountAmendRewrite _ _ _ _ _ _ _ => true
  | .accountRead _ => true
  | .accountStop _ => true
  | .accountResume _ => true
  | .accountRetire _ => true
  | .settle _ _ => true
  | .periodClose _ => true
  | .statementRead _ => true
  | .statementRelease _ _ => true
  | .priceWrite _ _ _ => true
  | .priceRead => true
  | .compartmentSetup _ _ _ _ => true
  | .compartmentService _ _ => true
  | .restate _ _ => true
  | .compartmentRead _ => true
  | .strapWrite _ _ => true
  | .strapRead _ => true
  | .gauge _ => true
  | .authoriseManual _ _ _ _ => true
  | .referReplyAccept _ _ _ _ => true
  | .referReplyRefuse _ => true
  | .referReplyRecheck _ => true
  | .hoseSetup _ _ => true
  | .hoseRead _ => true
  | .hoseService _ _ => true
  | .fieldStatus => true
  | .rewind _ => true
  | .hoseStop _ => true
  | .collect _ _ => true
  | .sessionRead _ => true
  | .meterRead _ => true
  | .metrologyWrite _ _ _ => true
  | .gradeCoefficientWrite _ _ _ => true
  | .storeWriteComplete => false
  | .metrologyRead _ => true
  | .proveStart _ _ _ => true
  | .proveResult _ _ => true
  | .proveAbort _ => true
  | .proveRead _ => true
  | .loadCreate _ _ _ _ => true
  | .loadArm _ => true
  | .loadCancel _ => true
  | .loadAbort _ => true
  | .loadRead _ => true
  | .loadRetire _ => true
  | .inletSetup _ _ _ _ => true
  | .inletRead => true
  | .windowSet _ => true
  | .clockSet _ => true
  | .rolloverSet _ => true
  | .clockRead => true
  | .faultRead _ => true
  | .faultControl _ _ => true
  | .faultClear _ => true
  | .noticeNext => true
  | .noticeMask _ => true
  | .restart => true
  | .identify => true
  | .commandTransaction _ _ => false
  | .readTransaction _ _ => false
  | .linkReset => false
  | .resetPin => false
  | .powerUp => false
  | .retentionSupplyLoss => false
  | .powerFailWarning _ => false
  | .powerFailHoldOffExpiry => false
  | .emergencyStop _ => false
  | .parkBrake _ => false
  | .nozzleSwitch _ _ => false
  | .startInput _ _ => false
  | .stowSwitch _ _ => false
  | .inletCoupling _ => false
  | .highLevelSwitch _ _ => false
  | .sealSwitch _ => false
  | .receiverCharacter _ _ _ => false
  | .lineBreak _ => false
  | .idleEvent _ => false
  | .fifoEntryTaken _ => false
  | .silenceTimerExpiry _ => false
  | .graceExpiry _ => false
  | .tagPresent _ _ => false
  | .tagLost _ _ => false
  | .tagChanged _ _ _ => false
  | .referDeadlineExpiry _ => false
  | .readyTimerExpiry _ => false
  | .resumeTimerExpiry _ => false
  | .settleTimerExpiry _ => false
  | .rewindTimerExpiry _ => false
  | .proveReadyTimeout _ => false
  | .proveSettleTimerExpiry _ => false
  | .armTimerExpiry => false
  | .inletIdleTimerExpiry => false
  | .loadSettleTimerExpiry => false
  | .windowExpiry _ => false
  | .forwardPulse _ _ => false
  | .reversePulse _ => false
  | .illegalTransition _ => false
  | .pwmPeriodStart => false
  | .probeSample _ => false
  | .siteClockSecond => false
  | .pulserQuarterStep _ _ => false
  | .lineTemperatureValidityChange _ _ => false
  | .mainPowerLoss => false

/-- A hose or reader port number. -/
def hoseOk (n : Nat) : Bool := (hoseOf n).isSome
/-- A compartment or meter number. -/
def fourOk (n : Nat) : Bool := (fourOf n).isSome
/-- A price tier. -/
def tierOk (n : Nat) : Bool := (tierOf n).isSome

/-- A MACHINE FIND key (R16). -/
def machineKeyOk : MachineKey → Bool
  | .tag t => tagOk t
  | .number n => inRange 1 999999 n

/-- An ACCOUNT READ key (R50). -/
def accountKeyOk : AccountKey → Bool
  | .slot n => accountSlotOk n
  | .number n => inRange 1 65535 n

/-- A RESTATE source (R68). -/
def restateSourceOk : RestateSource → Bool
  | .host v => decide (v ≤ Config.volumeMax)
  | .gauge => true

/-- The rewrite form's figures (R14). -/
def rewriteFiguresOk (used overrun fills : Nat) : Bool :=
  decide (used < 281474976710656) && decide (overrun ≤ used) && decide (fills ≤ Config.countMax)

/-- Linearisation points and pulse volume (R155). -/
def meterFieldsOk (pulseVolume : Nat) (points : List LinPoint) : Bool :=
  inRange 1000 100000 pulseVolume && linPointsOk points

/-- A reading a probe delivers in two bytes. -/
def readingOk (t : Int) : Bool := decide (-32768 ≤ t) && decide (t ≤ 32767)

def sampleOk (r : RawSample) : Bool := decide (r.level ≤ 65535) && readingOk r.temperature

def allFour {α : Type} (p : α → Bool) (v : ByFour α) : Bool := p v.one && p v.two && p v.three && p v.four

/-- Every field within the range its rule states. -/
def wellFormed : Instr → Bool
  | .machineInstall f => machineFieldsOk f
  | .machineAmendChange slot f => machineSlotOk slot && machineFieldsOk f
  | .machineAmendRewrite slot f used overrun fills =>
    machineSlotOk slot && machineFieldsOk f && rewriteFiguresOk used overrun fills
  | .machineRead slot => machineSlotOk slot
  | .machineFind key => machineKeyOk key
  | .machineSuspend slot => machineSlotOk slot
  | .machineReinstate slot => machineSlotOk slot
  | .machineRetire slot => machineSlotOk slot
  | .tagQuery tag => tagOk tag
  | .rangeWrite entry e => decide (entry < 8) && rangeEntryOk e
  | .rangeRead entry => decide (entry < 8)
  | .defaultPolicySet p => p != .allow
  | .readerSetup port baud minQuality grace => hoseOk port && readerFieldsOk baud minQuality grace
  | .readerStatus port _ => hoseOk port
  | .accountOpen number tier limit => tierOk tier && accountFieldsOk number limit
  | .accountAmendChange slot number tier limit => tierOk tier && accountSlotOk slot && accountFieldsOk number limit
  | .accountAmendRewrite slot number tier limit balance period current =>
    tierOk tier && accountSlotOk slot && accountFieldsOk number limit && decide (balance ≤ Config.moneyMax)
      && inRange 1 65535 period && periodFiguresOk current
  | .accountRead key => accountKeyOk key
  | .accountStop slot => accountSlotOk slot
  | .accountResume slot => accountSlotOk slot
  | .accountRetire slot => accountSlotOk slot
  | .settle slot amount => accountSlotOk slot && decide (amount ≤ Config.moneyMax)
  | .periodClose slot => accountSlotOk slot
  | .statementRead slot => accountSlotOk slot
  | .statementRelease slot period => accountSlotOk slot && decide (period ≤ 65535)
  | .priceWrite tier _ price => tierOk tier && decide (price < 1000000)
  | .priceRead => true
  | .compartmentSetup comp _ capacity threshold =>
    fourOk comp && inRange 100 20000 capacity && decide (threshold ≤ 20000)
  | .compartmentService comp _ => fourOk comp
  | .restate comp source => fourOk comp && restateSourceOk source
  | .compartmentRead comp => fourOk comp
  | .strapWrite comp points => fourOk comp && strapOk points
  | .strapRead comp => fourOk comp
  | .gauge comp => fourOk comp
  | .authoriseManual hose number _ preset =>
    hoseOk hose && inRange 1 999999 number && inRange 1 20000 (preset.getD 1)
  | .referReplyAccept hose account grades limit =>
    hoseOk hose && accountSlotOk account && permittedSet grades && inRange 1 20000 limit
  | .referReplyRefuse hose => hoseOk hose
  | .referReplyRecheck hose => hoseOk hose
  | .hoseSetup hose f => (hoseOf hose).any (fun id => (setupOf id f).isSome)
  | .hoseRead hose => hoseOk hose
  | .hoseService hose _ => hoseOk hose
  | .fieldStatus => true
  | .rewind hose => hoseOk hose
  | .hoseStop hose => hoseOk hose
  | .collect hose number => hoseOk hose && inRange 1 65535 number
  | .sessionRead hose => hoseOk hose
  | .meterRead meter => fourOk meter
  | .metrologyWrite meter pulseVolume points => fourOk meter && meterFieldsOk pulseVolume points
  | .gradeCoefficientWrite _ alpha fallback =>
    decide (alpha ≤ 2000) && decide (-400 ≤ fallback) && decide (fallback ≤ 850)
  | .storeWriteComplete => true
  | .metrologyRead meter => fourOk meter
  | .proveStart hose flow nominal => hoseOk hose && inRange 5 1000 flow && inRange 20 2000 nominal
  | .proveResult hose observed => hoseOk hose && decide (observed ≤ 4000000)
  | .proveAbort hose => hoseOk hose
  | .proveRead hose => hoseOk hose
  | .loadCreate comp _ expected docket => fourOk comp && inRange 1 20000 expected && docketOk docket
  | .loadArm slot => loadSlotOk slot
  | .loadCancel slot => loadSlotOk slot
  | .loadAbort slot => loadSlotOk slot
  | .loadRead slot => loadSlotOk slot
  | .loadRetire slot => loadSlotOk slot
  | .inletSetup idle arm settle ullage => inletSetupOk idle arm settle ullage
  | .inletRead => true
  | .windowSet _ => true
  | .clockSet count => decide (count < Config.clockModulus)
  | .rolloverSet second => decide (second < Config.dayLength)
  | .clockRead => true
  | .faultRead bank => (bankOf bank).isSome
  | .faultControl bank enable =>
    match bankOf bank with
    | none => false
    | some (.reader _) => decide (enable < 4)
    | some (.hose _) => decide (enable < 32)
    | some (.meter _) => decide (enable < 8)
    | some .gauge => decide (enable < 4)
    | some .inlet => decide (enable < 4)
    | some .table => decide (enable < 2)
  | .faultClear bank => (bankOf bank).isSome
  | .noticeNext => true
  | .noticeMask mask => decide (mask < 256)
  | .restart => true
  | .identify => true
  | .commandTransaction _ _ => true
  | .readTransaction _ _ => true
  | .linkReset => true
  | .resetPin => true
  | .powerUp => true
  | .retentionSupplyLoss => true
  | .powerFailWarning _ => true
  | .powerFailHoldOffExpiry => true
  | .emergencyStop _ => true
  | .parkBrake _ => true
  | .nozzleSwitch _ _ => true
  | .startInput _ _ => true
  | .stowSwitch _ _ => true
  | .inletCoupling _ => true
  | .highLevelSwitch _ _ => true
  | .sealSwitch _ => true
  | .receiverCharacter _ _ _ => true
  | .lineBreak _ => true
  | .idleEvent _ => true
  | .fifoEntryTaken _ => true
  | .silenceTimerExpiry _ => true
  | .graceExpiry _ => true
  | .tagPresent _ tag => tagOk tag
  | .tagLost _ tag => tagOk tag
  | .tagChanged _ old new => tagOk old && tagOk new && old != new
  | .referDeadlineExpiry _ => true
  | .readyTimerExpiry _ => true
  | .resumeTimerExpiry _ => true
  | .settleTimerExpiry _ => true
  | .rewindTimerExpiry _ => true
  | .proveReadyTimeout _ => true
  | .proveSettleTimerExpiry _ => true
  | .armTimerExpiry => true
  | .inletIdleTimerExpiry => true
  | .loadSettleTimerExpiry => true
  | .windowExpiry temperatures => allFour readingOk temperatures
  | .forwardPulse _ capture => decide (capture < Config.clockModulus)
  | .reversePulse _ => true
  | .illegalTransition _ => true
  | .pwmPeriodStart => true
  | .probeSample samples => allFour sampleOk samples
  | .siteClockSecond => true
  | .pulserQuarterStep _ _ => true
  | .lineTemperatureValidityChange _ reading => readingOk reading
  | .mainPowerLoss => true

end Sys2Proof.Machine
end

