-- ==== Sys2Proof/Certificates/Slice0/Obligations.lean ====
section
/-! DEFINITION. The statements of the model, for the provers. Each docstring names the rule of spec/ it formalises.
`completes c st payload t` says that host command `c` answers `st` with `payload` and leaves `t` in everything but
the port and DRIVE PERMIT; `checked c checks s st payload t` says the same once every check holds, and otherwise that
the first check to fail answers it and `s` is left; `happens t` says that an event leaves `t` but for DRIVE PERMIT.
So every statement that ends in one of them states the frame too: a field of the state that the record `t` does not
change is unchanged. -/

open Sys2Proof Sys2Proof.Machine

/-! ### Machine Table (Chapter 1) -/

/-- R11: MACHINE INSTALL takes its checks in order, then places the record in the lowest-numbered FREE slot, adds one
index entry per tank and a reference to the account, and answers the slot. -/
def Obligations.MachineInstallFollowsR11 : Prop :=
  ∀ (f : MachineFields) (s : State) (slot : Nat), Ready s → (lowestFree s.machines 1024).getD slot = slot →
    exec (.machineInstall f) s =
      checked (.machineInstall f)
        [(machineFieldsOk f, .malformed), ((lowestFree s.machines 1024).isSome, .tableFull),
          ((tableGet s.accounts f.account).isSome, .noRecord),
          (s.machines.all (fun p => p.2.number != f.number), .duplicateNumber),
          ((f.fuel.toList ++ f.fluid.toList).all (fun k => (tableGet s.tagIndex k.tag).isNone), .duplicateTag)] s
        .ok (u16 slot)
        (changeAccount f.account (fun a => { a with references := a.references + 1 })
          { s with
            machines := tableSet s.machines slot (machineStamp
              { state := .active, number := f.number, account := f.account,
                manualPermitted := f.manualPermitted, fuel := f.fuel, fluid := f.fluid,
                allowance := f.allowance, used := 0, held := 0, overrun := 0, fuelLink := none,
                fluidLink := none, fillCount := 0, lastFill := none, checkWord := 0 })
            tagIndex := f.fluid.toList.foldl (fun t k => tableSet t k.tag { slot := slot, tank := .fluid })
              (f.fuel.toList.foldl (fun t k => tableSet t k.tag { slot := slot, tank := .fuel }) s.tagIndex) })

/-- R12: MACHINE AMEND in the change form of a record that passes verification takes its checks in order, then
replaces the host-set fields and keeps every other; index and references follow (R6, R8). A FREE slot
answers NO_RECORD, a RETIRING record STATE, a QUARANTINED one CORRUPT, and a record that fails verification is quarantined
and answered CORRUPT. A slot out of range or an ill-formed field set is MALFORMED before any record is looked at. -/
def Obligations.MachineAmendChangeFollowsR12 : Prop :=
  (∀ (slot : Nat) (f : MachineFields) (s : State) (m : MachineRecord), Ready s →
    tableGet s.machines slot = some m → m.checkWord = machineCheck m →
    exec (.machineAmendChange slot f) s =
      checked (.machineAmendChange slot f)
        [(decide (slot < 1024) && machineFieldsOk f, .malformed), (m.state != .retiring, .state),
          (m.state != .quarantined, .corrupt), ((tableGet s.accounts f.account).isSome, .noRecord),
          (s.machines.all (fun p => p.2.number != f.number || p.1 == slot), .duplicateNumber),
          ((f.fuel.toList ++ f.fluid.toList).all
            (fun k => (tableGet s.tagIndex k.tag).all (fun e => e.slot == slot)), .duplicateTag),
          ((m.fuelLink.isNone || (f.fuel.isSome && f.fuel == m.fuel))
            && (m.fluidLink.isNone || (f.fluid.isSome && f.fluid == m.fluid)), .inUse),
          (decide (m.used + m.held ≤ f.allowance * 1000000 + m.overrun), .belowCommitted)] s
        .ok []
        (reindex slot m.fuel m.fluid f.fuel f.fluid
          (moveReference (some m.account) (some f.account)
            { s with
              machines := tableSet s.machines slot (machineStamp
                { m with
                  number := f.number, account := f.account, manualPermitted := f.manualPermitted,
                  allowance := f.allowance, fuel := f.fuel, fluid := f.fluid }) })))
  ∧ (∀ (slot : Nat) (f : MachineFields) (s : State), Ready s → slot < 1024 → machineFieldsOk f = true →
    (tableGet s.machines slot = none →
      exec (.machineAmendChange slot f) s = completes (.machineAmendChange slot f) .noRecord [] s)
    ∧ ∀ m, tableGet s.machines slot = some m →
      (m.state = .retiring → exec (.machineAmendChange slot f) s = completes (.machineAmendChange slot f) .state [] s)
      ∧ (m.state = .quarantined →
        exec (.machineAmendChange slot f) s = completes (.machineAmendChange slot f) .corrupt [] s)
      ∧ (m.state = .active ∨ m.state = .suspended → m.checkWord ≠ machineCheck m →
        exec (.machineAmendChange slot f) s =
          completes (.machineAmendChange slot f) .corrupt [] (corruptMachine slot m s)))
  ∧ (∀ (slot : Nat) (f : MachineFields) (s : State), Ready s → 1024 ≤ slot ∨ machineFieldsOk f = false →
    exec (.machineAmendChange slot f) s = completes (.machineAmendChange slot f) .malformed [] s)

/-- R14: MACHINE AMEND in the rewrite form takes its checks in order without verifying, then replaces the whole
record, its links and day held rebuilt from the hoses' open sessions, a QUARANTINED record becoming ACTIVE. A FREE
slot answers NO_RECORD. -/
def Obligations.MachineAmendRewriteFollowsR14 : Prop :=
  (∀ (slot : Nat) (f : MachineFields) (used overrun fills : Nat) (s : State) (m : MachineRecord), Ready s →
    tableGet s.machines slot = some m →
    exec (.machineAmendRewrite slot f used overrun fills) s =
      checked (.machineAmendRewrite slot f used overrun fills)
        [(decide (slot < 1024) && machineFieldsOk f && decide (used < 2 ^ 48 ∧ fills ≤ 65535)
            && decide (overrun ≤ used), .malformed),
          (m.state != .retiring, .state), ((tableGet s.accounts f.account).isSome, .noRecord),
          (s.machines.all (fun p => p.2.number != f.number || p.1 == slot), .duplicateNumber),
          ((f.fuel.toList ++ f.fluid.toList).all
            (fun k => (tableGet s.tagIndex k.tag).all (fun e => e.slot == slot)), .duplicateTag),
          (((hoseOnTank slot .fuel s).isNone || f.fuel.isSome)
            && ((hoseOnTank slot .fluid s).isNone || f.fluid.isSome), .inUse),
          (decide (used + heldAt (hoseOnTank slot .fuel s) s ≤ f.allowance * 1000000 + overrun), .belowCommitted)] s
        .ok []
        (reindex slot m.fuel m.fluid f.fuel f.fluid
          (moveReference (some m.account) (some f.account)
            { s with
              machines := tableSet s.machines slot (machineStamp
                { state := if m.state = .quarantined then .active else m.state,
                  number := f.number, account := f.account, manualPermitted := f.manualPermitted,
                  fuel := f.fuel, fluid := f.fluid, allowance := f.allowance, used := used,
                  held := heldAt (hoseOnTank slot .fuel s) s, overrun := overrun,
                  fuelLink := hoseOnTank slot .fuel s, fluidLink := hoseOnTank slot .fluid s,
                  fillCount := fills, lastFill := none, checkWord := m.checkWord }) })))
  ∧ (∀ (slot : Nat) (f : MachineFields) (used overrun fills : Nat) (s : State), Ready s →
    tableGet s.machines slot = none →
    exec (.machineAmendRewrite slot f used overrun fills) s =
      checked (.machineAmendRewrite slot f used overrun fills)
        [(decide (slot < 1024) && machineFieldsOk f && decide (used < 2 ^ 48 ∧ fills ≤ 65535)
            && decide (overrun ≤ used), .malformed)] s .noRecord [] s)

/-- R17: MACHINE SUSPEND and MACHINE REINSTATE: a FREE slot answers NO_RECORD, a RETIRING or QUARANTINED record STATE
before verification, a failing record is quarantined and answered CORRUPT; otherwise the record takes the state with a
fresh check word, or stays as it is when it has that state.
R18, R19: MACHINE RETIRE frees a record with no tank link at once, its index entries gone and its account's count one
less, and makes a linked record RETIRING; it never verifies. -/
def Obligations.MachineStatesFollowR17R19 : Prop :=
  (∀ (slot : Nat) (s : State), Ready s → slot < 1024 →
      (tableGet s.machines slot = none →
        exec (.machineSuspend slot) s = completes (.machineSuspend slot) .noRecord [] s
        ∧ exec (.machineReinstate slot) s = completes (.machineReinstate slot) .noRecord [] s)
      ∧ ∀ m, tableGet s.machines slot = some m →
        (m.state = .retiring ∨ m.state = .quarantined →
          exec (.machineSuspend slot) s = completes (.machineSuspend slot) .state [] s
          ∧ exec (.machineReinstate slot) s = completes (.machineReinstate slot) .state [] s)
        ∧ (m.state = .active ∨ m.state = .suspended →
          (m.checkWord ≠ machineCheck m → ∃ q,
            q = report .table .recordCheck slot 0
              { s with machines := tableSet s.machines slot { m with state := .quarantined } }
            ∧ exec (.machineSuspend slot) s = completes (.machineSuspend slot) .corrupt [] q
            ∧ exec (.machineReinstate slot) s = completes (.machineReinstate slot) .corrupt [] q)
          ∧ (m.checkWord = machineCheck m →
            exec (.machineSuspend slot) s = completes (.machineSuspend slot) .ok []
              { s with
                machines := if m.state = .suspended then s.machines
                  else tableSet s.machines slot (machineStamp { m with state := .suspended }) }
            ∧ exec (.machineReinstate slot) s = completes (.machineReinstate slot) .ok []
              { s with
                machines := if m.state = .active then s.machines
                  else tableSet s.machines slot (machineStamp { m with state := .active }) })))
  ∧ (∀ (slot : Nat) (s : State), Ready s → slot < 1024 →
      (tableGet s.machines slot = none →
        exec (.machineRetire slot) s = completes (.machineRetire slot) .noRecord [] s)
      ∧ ∀ m, tableGet s.machines slot = some m →
        (m.state = .retiring → exec (.machineRetire slot) s = completes (.machineRetire slot) .ok (u8 3) s)
        ∧ (m.state ≠ .retiring → (m.fuelLink.isSome ∨ m.fluidLink.isSome) →
          exec (.machineRetire slot) s = completes (.machineRetire slot) .ok (u8 3)
            { s with machines := tableSet s.machines slot (machineStamp { m with state := .retiring }) })
        ∧ (m.state ≠ .retiring → m.fuelLink = none → m.fluidLink = none →
          (∀ k ∈ m.fuel.toList ++ m.fluid.toList, (tableGet s.tagIndex k.tag).map TagTarget.slot = some slot) →
          (∀ k ∈ m.fuel.toList, ∀ u ∈ m.fluid.toList, k.tag ≠ u.tag) →
          exec (.machineRetire slot) s = completes (.machineRetire slot) .ok (u8 0)
            (changeAccount m.account (fun a => { a with references := minus a.references 1 })
              { s with
                machines := tableErase s.machines slot
                tagIndex := (m.fuel.toList ++ m.fluid.toList).foldl (fun t k => tableErase t k.tag) s.tagIndex })))

/-- R15, R16 and R23: MACHINE READ and MACHINE FIND report the record of a slot, of a tag or of a number: OK and nothing
changed when its check word agrees; CORRUPT otherwise, an ACTIVE or SUSPENDED record being quarantined and RECORD_CHECK
reported, a RETIRING one kept with the fault reported, a QUARANTINED one left.
R50, R55, R58: ACCOUNT READ and STATEMENT READ report the record of a slot or number: OK and nothing changed when the
check word agrees; CORRUPT otherwise, an OPEN or STOPPED record being quarantined with RECORD_CHECK, detail 1.
STATEMENT READ answers CORRUPT for a QUARANTINED record in any case.
A FREE slot, a tag that is not in the index and a number that no record holds answer NO_RECORD.
That a CORRUPT response shows the record as the look-up leaves it, quarantined, is the model's choice
(notes/assumptions/42.md). -/
def Obligations.RecordReadsVerifyR15R50 : Prop :=
  (∀ (slot : Nat) (s : State) (m : MachineRecord), Ready s → slot < 1024 → tableGet s.machines slot = some m →
      ∀ (st : Status) (shown : MachineRecord) (t : State),
        (m.checkWord = machineCheck m ∧ st = .ok ∧ shown = m ∧ t = s)
          ∨ (m.checkWord ≠ machineCheck m ∧ st = .corrupt
            ∧ ((m.state = .quarantined ∧ shown = m ∧ t = s)
              ∨ (m.state = .retiring ∧ shown = m ∧ t = report .table .recordCheck slot 0 s)
              ∨ ((m.state = .active ∨ m.state = .suspended) ∧ shown = { m with state := .quarantined }
                ∧ t = report .table .recordCheck slot 0 { s with machines := tableSet s.machines slot shown }))) →
        exec (.machineRead slot) s = completes (.machineRead slot) st (machineBytes shown) t
        ∧ (∀ tag kind, 1 ≤ tag → tag < 2 ^ 48 → tableGet s.tagIndex tag = some { slot := slot, tank := kind } →
          exec (.machineFind (.tag tag)) s =
            completes (.machineFind (.tag tag)) st (u16 slot ++ u8 (tankCode kind) ++ machineBytes shown) t)
        ∧ (∀ n, 1 ≤ n → n ≤ 999999 → tableFind (fun _ r => r.number == n) s.machines = some (slot, m) →
          exec (.machineFind (.number n)) s =
            completes (.machineFind (.number n)) st (u16 slot ++ machineBytes shown) t))
  ∧ (∀ (slot : Nat) (s : State) (a : AccountRecord), Ready s → slot < 256 → tableGet s.accounts slot = some a →
      ∀ (st : Status) (shown : AccountRecord) (t : State),
        (a.checkWord = accountCheck a ∧ st = .ok ∧ shown = a ∧ t = s)
          ∨ (a.checkWord ≠ accountCheck a ∧ st = .corrupt
            ∧ ((a.state = .quarantined ∧ shown = a ∧ t = s)
              ∨ (a.state ≠ .quarantined ∧ shown = { a with state := .quarantined }
                ∧ t = report .table .recordCheck slot 1
                  { s with accounts := tableSet s.accounts slot shown }))) →
        exec (.accountRead (.slot slot)) s =
            completes (.accountRead (.slot slot)) st (u8 slot ++ accountBytes shown) t
        ∧ (∀ n, 1 ≤ n → n ≤ 65535 → tableFind (fun _ r => r.number == n) s.accounts = some (slot, a) →
          exec (.accountRead (.number n)) s =
            completes (.accountRead (.number n)) st (u8 slot ++ accountBytes shown) t)
        ∧ exec (.statementRead slot) s =
            completes (.statementRead slot) (if a.state = .quarantined then .corrupt else st)
              (optional statementBytes a.previous) t)
  ∧ (∀ (s : State), Ready s →
      (∀ slot, slot < 1024 → tableGet s.machines slot = none →
        exec (.machineRead slot) s = completes (.machineRead slot) .noRecord [] s)
      ∧ (∀ tag, 1 ≤ tag → tag < 2 ^ 48 → tableGet s.tagIndex tag = none →
        exec (.machineFind (.tag tag)) s = completes (.machineFind (.tag tag)) .noRecord [] s)
      ∧ (∀ n, 1 ≤ n → n ≤ 999999 → s.machines.all (fun p => p.2.number != n) = true →
        exec (.machineFind (.number n)) s = completes (.machineFind (.number n)) .noRecord [] s)
      ∧ (∀ slot, slot < 256 → tableGet s.accounts slot = none →
        exec (.accountRead (.slot slot)) s = completes (.accountRead (.slot slot)) .noRecord [] s
        ∧ exec (.statementRead slot) s = completes (.statementRead slot) .noRecord [] s)
      ∧ (∀ n, 1 ≤ n → n ≤ 65535 → s.accounts.all (fun p => p.2.number != n) = true →
        exec (.accountRead (.number n)) s = completes (.accountRead (.number n)) .noRecord [] s))

/-- R9: the result of resolving a tag: the machine the index names; otherwise the lowest-numbered entry among those that
match with the most restrictive policy; otherwise the default policy. R7: an entry matches when it is enabled and tag and base agree under its mask.
R6, R8: what the tag index and the reference counts hold after a record's tanks and account change: exactly the new
tanks' tags name the slot, tags of other slots keep their entries; the old account has one reference less and the new one
more, nothing else of either changing but the check word. -/
def Obligations.IndexAndResolutionFollowR6R9 : Prop :=
  (∀ (tag : Nat) (s : State),
      (∀ target, resolve tag s = .machine target ↔ tableGet s.tagIndex tag = some target)
      ∧ (∀ (i : Nat) e, resolve tag s = .range i e ↔
          tableGet s.tagIndex tag = none ∧ s.ranges[i]? = some e ∧ rangeMatches e tag = true
          ∧ ∀ (j : Nat) d, s.ranges[j]? = some d → rangeMatches d tag = true →
            policyCode e.policy ≤ policyCode d.policy ∧ (policyCode e.policy = policyCode d.policy → i ≤ j))
      ∧ (∀ p, resolve tag s = .default p ↔
          tableGet s.tagIndex tag = none ∧ p = s.defaultPolicy
          ∧ ∀ (j : Nat) d, s.ranges[j]? = some d → rangeMatches d tag = false))
  ∧ (∀ (e : RangeEntry) (tag : Nat),
      rangeMatches e tag = true ↔ e.enabled = true ∧ tag &&& e.mask = e.base &&& e.mask)
  ∧ ((∀ (slot : Nat) (of ou nf nu : Option Tank) (s : State) (tag : Nat),
      (∀ k ∈ nf.toList, ∀ u ∈ nu.toList, k.tag ≠ u.tag) →
      tableGet (reindex slot of ou nf nu s).tagIndex tag =
        if (nf.map Tank.tag) = some tag then some { slot := slot, tank := .fuel }
        else if (nu.map Tank.tag) = some tag then some { slot := slot, tank := .fluid }
        else if (of.map Tank.tag = some tag ∨ ou.map Tank.tag = some tag)
            ∧ (tableGet s.tagIndex tag).map TagTarget.slot = some slot then none
        else tableGet s.tagIndex tag)
    ∧ (∀ (i j : Nat) (a b : AccountRecord) (s : State), i ≠ j → 0 < a.references →
      tableGet s.accounts i = some a → tableGet s.accounts j = some b →
      moveReference (some i) (some i) s = s
      ∧ moveReference (some i) (some j) s =
        { s with
          accounts := tableSet (tableSet s.accounts i (accountStamp { a with references := a.references - 1 })) j
            (accountStamp { b with references := b.references + 1 }) }))

/-- R10, R20, R21: TAG QUERY answers the resolution and changes nothing; RANGE WRITE replaces an entry whole and moves the
account reference of enabled ALLOW entries; RANGE READ answers the entry with the default policy; DEFAULT POLICY SET takes
REFUSE or REFER. What TAG QUERY carries for an index entry that names a FREE slot is the model's choice
(notes/assumptions/28.md). -/
def Obligations.TagAndRangeCommandsComplete : Prop :=
  ∀ (s : State), Ready s →
    (∀ tag, exec (.tagQuery tag) s =
      checked (.tagQuery tag) [(decide (1 ≤ tag ∧ tag < 2 ^ 48), .malformed)] s
        .ok (resolutionBytes (resolve tag s) s) s)
    ∧ (∀ (entry : Nat) old (e : RangeEntry), s.ranges[entry]? = some old →
      exec (.rangeWrite entry e) s =
        checked (.rangeWrite entry e)
          [(decide (e.base < 2 ^ 48 ∧ e.mask < 2 ^ 48 ∧ e.account ≤ 255 ∧ 1 ≤ e.limit ∧ e.limit ≤ 20000)
              && [⟨true, false, false⟩, ⟨false, true, false⟩, ⟨true, true, false⟩, ⟨false, false, true⟩].contains
                e.grades, .malformed),
            (!(e.enabled && e.policy == .allow) || (tableGet s.accounts e.account).isSome, .noRecord)] s
          .ok []
          (moveReference (if old.enabled && old.policy == .allow then some old.account else none)
            (if e.enabled && e.policy == .allow then some e.account else none)
            { s with ranges := s.ranges.setIfInBounds entry e }))
    ∧ (∀ (entry : Nat) e, s.ranges[entry]? = some e →
      exec (.rangeRead entry) s =
        completes (.rangeRead entry) .ok (rangeBytes e ++ u8 (policyCode s.defaultPolicy)) s)
    ∧ (∀ p, exec (.defaultPolicySet p) s =
        checked (.defaultPolicySet p) [(p != .allow, .malformed)] s .ok [] { s with defaultPolicy := p })

/-! ### Nozzle readers (Chapter 2) -/

/-- R38, R39: READER SETUP writes its fields, refused BUSY for a new baud rate while the hose has a request or an open
session, a new rate emptying the FIFO and discarding the frame in assembly; READER STATUS reports, then clears the frame
counts and the high-water mark when asked; that the mark is 0 while entries stand in the FIFO is the model's choice beside R27
(notes/assumptions/47.md). -/
def Obligations.ReaderCommandsFollowR38R39 : Prop :=
  ∀ (h : HoseId) (s : State), Ready s →
    (∀ baud q g, exec (.readerSetup h.number baud q g) s =
      checked (.readerSetup h.number baud q g)
        [([9600, 19200, 38400].contains baud && decide (q ≤ 100 ∧ 500 ≤ g ∧ g ≤ 10000), .malformed),
          (baud == (s.readers.get h).baud
            || !([HoseState.referred, .ready, .flowing, .slowing, .paused, .stopping].contains (s.hoses.get h).state), .busy)] s
        .ok []
        { s with
          readers := s.readers.set h
            (if baud = (s.readers.get h).baud then { s.readers.get h with minQuality := q, grace := g }
            else { s.readers.get h with baud := baud, minQuality := q, grace := g, fifo := [], frame := none }) })
    ∧ (∀ clear, exec (.readerStatus h.number clear) s =
      completes (.readerStatus h.number clear) .ok (readerBytes s.timebase.now (s.readers.get h))
        { s with
          readers := s.readers.set h
            (if clear then { s.readers.get h with good := 0, damaged := 0, rejected := 0, highWater := 0 }
            else s.readers.get h) })

/-- R26: a received character is FRAMING with its stop bit at the space level, else PARITY where the ones among data and
parity bits are odd, else GOOD, and is delivered in each case. A break is reported once however long it lasts; an idle event
once for the gap after a character.
R27: a delivered character takes the tail of a FIFO that holds fewer than 32 entries, raising the high-water mark, and
otherwise makes the newest entry OVERRUN; an idle event or a break is attached to the newest entry, and with an empty
FIFO and no frame in assembly changes only what the receiver remembers. R29, R31: with an empty FIFO it closes the frame in
assembly as a damaged frame of its own kind, or of the kind already marked: HUNT, one more damaged frame, one more in the
run, LINE_ERROR with the code of the kind at the eighth; the silence timer starts again, but not at a break. That a discarded
character leaves a cleared high-water mark as it is, is the model's choice (notes/assumptions/47.md). -/
def Obligations.ReaderLineFollowsR27R31 : Prop :=
  (∀ (h : HoseId) (s : State) (r : Reader), s.supply.power = .running → s.readers.get h = r →
    (∀ data parity stop cond,
      cond = (if stop = false then EntryCondition.framing
        else if (((List.range 8).filter (fun i => data.getLsbD i)).length + parity.toNat) % 2 = 0 then .good
        else .parity) →
      (r.fifo.length < 32 → exec (.receiverCharacter h data ⟨parity, stop⟩) s = happens
        { s with
          readers := s.readers.set h
            { r with
              receiver := .delivered
              fifo := r.fifo ++ [{ data := data, condition := cond, events := [] }]
              highWater := max r.highWater (r.fifo.length + 1) } })
      ∧ (∀ older e, 32 ≤ r.fifo.length → r.fifo = older ++ [e] →
        exec (.receiverCharacter h data ⟨parity, stop⟩) s = happens
          { s with
            readers := s.readers.set h
              { r with receiver := .delivered, fifo := older ++ [{ e with condition := .overrun }] } }))
    ∧ (r.receiver = .breaking → exec (.lineBreak ⟨h, false⟩) s = happens s)
    ∧ (r.receiver ≠ .delivered → exec (.idleEvent h) s = happens
      { s with readers := s.readers.set h { r with receiver := .quiet } })
    ∧ (∀ older e, r.fifo = older ++ [e] →
      (r.receiver = .delivered → exec (.idleEvent h) s = happens
        { s with
          readers := s.readers.set h
            { r with receiver := .quiet, fifo := older ++ [{ e with events := e.events ++ [.idle] }] } })
      ∧ (∀ returned, r.receiver ≠ .breaking ∨ returned = true → exec (.lineBreak ⟨h, returned⟩) s = happens
        { s with
          readers := s.readers.set h
            { r with receiver := .breaking, fifo := older ++ [{ e with events := e.events ++ [.lineBreak] }] } }))
    ∧ (r.fifo = [] → r.frame = none →
      exec (.idleEvent h) s = happens { s with readers := s.readers.set h { r with receiver := .quiet } }
      ∧ (∀ returned, r.receiver ≠ .breaking ∨ returned = true → exec (.lineBreak ⟨h, returned⟩) s = happens
        { s with readers := s.readers.set h { r with receiver := .breaking } })))
  ∧ (∀ (h : HoseId) (s : State) (r : Reader) (f : ReaderFrame), s.supply.power = .running → s.readers.get h = r →
    r.fifo = [] → r.frame = some f →
    ∀ (i : Instr) (kind : Damage) (start : Nat) (line : Receiver),
      (i = .idleEvent h ∧ r.receiver = .delivered ∧ kind = .idle ∧ start = s.timebase.now ∧ line = .quiet)
        ∨ (kind = .lineBreak ∧ start = r.silenceStart ∧ line = .breaking
          ∧ ∃ returned, i = .lineBreak ⟨h, returned⟩ ∧ (r.receiver ≠ .breaking ∨ returned = true)) →
      (r.runCount < 7 → exec i s = happens
        { s with
          readers := s.readers.set h
            { r with
              receiver := line, frame := none, silenceStart := start, damaged := min (r.damaged + 1) 65535
              runCount := r.runCount + 1 } })
      ∧ (7 ≤ r.runCount → exec i s = happens
        (report (.reader h) .lineError h.number (damageCode (f.damage.getD kind))
          { s with
            readers := s.readers.set h
              { r with
                receiver := line, frame := none, silenceStart := start, damaged := min (r.damaged + 1) 65535
                runCount := 0 } })))

/-- R28: the assembler takes the oldest FIFO entry, then the events attached to it. In HUNT the entry starts a frame, with
an expected count only when it is GOOD and lies in 2 to 30; in COLLECT it is appended and its condition marks an unmarked
frame; the entry that completes the count closes the frame; a frame of 31 bytes without a count is closed and the entry
starts the next. While the port hands tag events over, the assembler takes none (2.2; notes/assumptions/2.md).
R30 to R33: a closed frame leaves HUNT and starts the silence timer again: damaged, it is counted, the eighth of a run with
LINE_ERROR; undamaged and rejected, it is counted; good, it is counted, ends the run, makes the reader LIVE and goes to
presence tracking.
R30: what an undamaged closed frame holds: a TAG frame of any tag and quality with its own check is a good TAG frame,
an EMPTY frame with its check a good EMPTY frame, and a frame whose last byte is not the check is rejected. -/
def Obligations.ReaderFramesFollowR28R30 : Prop :=
  (∀ (h : HoseId) (s : State) (r : Reader) (e : FifoEntry) (rest : List FifoEntry), s.supply.power = .running →
      s.readers.get h = r → r.events = [] → r.fifo = e :: rest →
      ∀ (first next : ReaderFrame) (t : State),
        first = (if e.condition = .good ∧ 2 ≤ e.data.toNat ∧ e.data.toNat ≤ 30
          then { bytes := [e.data], expected := some e.data.toNat, damage := none }
          else { bytes := [e.data], expected := none, damage := some .length }) →
        (∀ f, r.frame = some f →
          next = { f with
            bytes := f.bytes ++ [e.data]
            damage := f.damage.or (match e.condition with
              | .good => none
              | .parity => some .parity
              | .framing => some .framing
              | .overrun => some .overrun) }) →
        ((r.frame = none ∧ t = { s with readers := s.readers.set h { r with fifo := rest, frame := some first } })
          ∨ (∃ f n, r.frame = some f ∧ f.expected = some n ∧ f.bytes.length ≠ n
            ∧ t = { s with readers := s.readers.set h { r with fifo := rest, frame := some next } })
          ∨ (∃ f n, r.frame = some f ∧ f.expected = some n ∧ f.bytes.length = n
            ∧ t = closeFrame h false next { s with readers := s.readers.set h { r with fifo := rest } })
          ∨ (∃ f, r.frame = some f ∧ f.expected = none ∧ f.bytes.length < 31
            ∧ t = { s with readers := s.readers.set h { r with fifo := rest, frame := some next } })
          ∨ (∃ f, r.frame = some f ∧ f.expected = none ∧ 31 ≤ f.bytes.length
            ∧ t = putFrame h first (closeFrame h false f { s with readers := s.readers.set h { r with fifo := rest } }))) →
        exec (.fifoEntryTaken h) s = happens (e.events.foldl (fun u v => takeLineEvent h v u) t))
  ∧ (∀ (h : HoseId) (s : State), s.supply.power = .running → (s.readers.get h).events ≠ [] ∨ (s.readers.get h).fifo = [] →
      exec (.fifoEntryTaken h) s = happens s)
  ∧ (∀ (h : HoseId) (s : State) (r closed : Reader) (f : ReaderFrame), s.readers.get h = r →
      closed = { r with frame := none, silenceStart := s.timebase.now } →
      (f.damage = none → judgeFrame f.bytes = .rejected →
        closeFrame h false f s =
          { s with readers := s.readers.set h { closed with rejected := min (r.rejected + 1) 65535 } })
      ∧ (∀ content, f.damage = none → judgeFrame f.bytes = content → content ≠ .rejected →
        closeFrame h false f s =
          { s with
            readers := s.readers.set h (trackPresence content s.timebase.count s.timebase.now
              { closed with good := min (r.good + 1) 65535, runCount := 0, condition := .live }) })
      ∧ (∀ d, f.damage = some d →
        (r.runCount < 7 → closeFrame h false f s =
          { s with
            readers := s.readers.set h
              { closed with damaged := min (r.damaged + 1) 65535, runCount := r.runCount + 1 } })
        ∧ (7 ≤ r.runCount → closeFrame h false f s = report (.reader h) .lineError h.number (damageCode d)
          { s with
            readers := s.readers.set h { closed with damaged := min (r.damaged + 1) 65535, runCount := 0 } })))
  ∧ ((∀ tag q, 1 ≤ tag → tag < 2 ^ 48 → q ≤ 100 →
      judgeFrame ((9 :: 1 :: tagBytes tag ++ u8 q) ++ [crc8 (9 :: 1 :: tagBytes tag ++ u8 q)]) = .tag tag q)
    ∧ judgeFrame [2, 2, crc8 [2, 2]] = .empty
    ∧ (∀ body check, crc8 body ≠ check → judgeFrame (body ++ [check]) = .rejected)
    ∧ (∀ q, 101 ≤ q → q < 256 → ∀ tag,
      judgeFrame ((9 :: 1 :: tagBytes tag ++ u8 q) ++ [crc8 (9 :: 1 :: tagBytes tag ++ u8 q)]) = .rejected))

/-- R33 to R36: presence tracking of a good frame at clock reading `c` and instant `n`: a read of absence clears the
candidate alone; a first qualifying read makes a candidate; the second in a run makes the tag present, or changes it, with
its event; a read of the present tag refreshes it and clears the candidate.
R32, R35: the silence timer's expiry makes a WAITING or LIVE reader ABSENT, reports READER_SILENT with the detail that
says whether a tag was present, clears the candidate and loses the present tag; an ABSENT reader only restarts its timer;
the grace's expiry loses the present tag and keeps the candidate.
The model's choices: the timer's restart at its expiry in WAITING and LIVE (notes/assumptions/22.md), the instant an expiry
moves on (notes/assumptions/19.md), and that an expiry is held while the port hands events over (notes/assumptions/2.md). -/
def Obligations.PresenceFollowsR32R36 : Prop :=
  (∀ (r : Reader) (c n x q : Nat),
      trackPresence .empty c n r = { r with candidate := none }
      ∧ (q < r.minQuality → trackPresence (.tag x q) c n r = { r with candidate := none })
      ∧ (r.minQuality ≤ q →
        ((r.present.map Presence.tag ≠ some x ∧ r.candidate ≠ some x →
            trackPresence (.tag x q) c n r = { r with candidate := some x })
        ∧ (r.present = none ∧ r.candidate = some x →
            trackPresence (.tag x q) c n r =
              { r with
                present := some { tag := x, quality := q, firstSeen := c, lastSeen := c, expiry := n + r.grace }
                candidate := none, events := r.events ++ [.present x] })
        ∧ (∀ p, r.present = some p → p.tag ≠ x → r.candidate = some x →
            trackPresence (.tag x q) c n r =
              { r with
                present := some { tag := x, quality := q, firstSeen := c, lastSeen := c, expiry := n + r.grace }
                candidate := none, events := r.events ++ [.changed p.tag x] })
        ∧ (∀ p, r.present = some p → p.tag = x →
            trackPresence (.tag x q) c n r =
              { r with
                present := some { p with quality := q, lastSeen := c, expiry := n + r.grace }
                candidate := none }))))
  ∧ (∀ (h : HoseId) (s : State) (r : Reader), s.supply.power = .running → s.readers.get h = r →
      (r.events ≠ [] →
        exec (.silenceTimerExpiry h) s = happens s ∧ exec (.graceExpiry h) s = happens s)
      ∧ (∀ start lost reached, r.events = [] → start = max s.timebase.now (r.silenceStart + 5000) →
        lost = (r.present.toList.map (fun p => TagEvent.lost p.tag)) →
        reached = reachInstant (r.silenceStart + 5000) s →
        (r.condition = .absent → exec (.silenceTimerExpiry h) s = happens
          { reached with readers := s.readers.set h { r with silenceStart := start } })
        ∧ (r.condition ≠ .absent → exec (.silenceTimerExpiry h) s = happens
          (report (.reader h) .readerSilent h.number (if r.present.isSome then 1 else 0)
            { reached with
              readers := s.readers.set h
                { r with
                  condition := .absent, candidate := none, present := none, silenceStart := start
                  events := lost } })))
      ∧ (r.events = [] → ∀ p, r.present = some p → exec (.graceExpiry h) s = happens
          { reachInstant p.expiry s with
            readers := s.readers.set h { r with present := none, events := [.lost p.tag] } })
      ∧ (r.present = none → exec (.graceExpiry h) s = happens s))

/-! ### Accounts and prices (Chapter 3) -/

/-- R47, R48, R49: ACCOUNT OPEN and both forms of ACCOUNT AMEND take their checks in order; OPEN writes a new record in the
lowest-numbered FREE slot, the change form replaces number, tier and limit of a trusted record, and the rewrite form
replaces the whole record, rebuilding held, open sessions and references. A FREE slot answers NO_RECORD; the change form
answers CORRUPT for a QUARANTINED record, and for one that fails verification, which it quarantines. A tier or a slot out of
range is MALFORMED. -/
def Obligations.AccountOpenAmendFollowR47R49 : Prop :=
  (∀ (number tier limit : Nat) (t : Tier) (s : State), Ready s → tierOf tier = some t →
    (∀ slot, (lowestFree s.accounts 256).getD slot = slot →
      exec (.accountOpen number tier limit) s =
        checked (.accountOpen number tier limit)
          [(decide (1 ≤ number ∧ number ≤ 65535 ∧ limit < 10 ^ 12), .malformed),
            ((lowestFree s.accounts 256).isSome, .tableFull),
            (s.accounts.all (fun p => p.2.number != number), .duplicateNumber)] s
          .ok (u8 slot)
          { s with
            accounts := tableSet s.accounts slot (accountStamp
              { state := .opened, number := number, tier := t, limit := limit, balance := 0, held := 0,
                openSessions := 0, references := 0, period := 1,
                current := { net := ByGrade.all 0, charges := 0, fills := 0 }, previous := none, checkWord := 0 }) })
    ∧ (∀ slot a, tableGet s.accounts slot = some a →
      (a.checkWord = accountCheck a →
        exec (.accountAmendChange slot number tier limit) s =
          checked (.accountAmendChange slot number tier limit)
            [(decide (slot < 256 ∧ 1 ≤ number ∧ number ≤ 65535 ∧ limit < 10 ^ 12), .malformed),
              (a.state != .quarantined, .corrupt),
              (s.accounts.all (fun p => p.2.number != number || p.1 == slot), .duplicateNumber)] s
            .ok []
            { s with
              accounts := tableSet s.accounts slot
                (accountStamp { a with number := number, tier := t, limit := limit }) })
      ∧ (∀ balance period current held opens refs,
        held = ((s.hoses.toList.filterMap (billsTo slot)).map Session.moneyHold).sum →
        opens = (s.hoses.toList.filterMap (billsTo slot)).length →
        refs = (s.machines.filter (fun p => p.2.account == slot)).length
          + (s.ranges.toList.filter (fun e => e.enabled && e.policy == .allow && e.account == slot)).length →
        exec (.accountAmendRewrite slot number tier limit balance period current) s =
          checked (.accountAmendRewrite slot number tier limit balance period current)
            [(decide (slot < 256 ∧ 1 ≤ number ∧ number ≤ 65535 ∧ limit < 10 ^ 12 ∧ balance < 2 ^ 63
                ∧ 1 ≤ period ∧ period ≤ 65535 ∧ current.charges < 2 ^ 63 ∧ current.fills ≤ 65535)
                && current.net.toList.all (fun n => decide (n < 2 ^ 63)), .malformed),
              (s.accounts.all (fun p => p.2.number != number || p.1 == slot), .duplicateNumber)] s
            .ok (u64 held ++ u8 opens ++ u16 refs)
            { s with
              accounts := tableSet s.accounts slot (accountStamp
                { state := if a.state = .quarantined then .opened else a.state, number := number, tier := t,
                  limit := limit, balance := balance, held := held, openSessions := opens, references := refs,
                  period := period, current := current, previous := none, checkWord := 0 }) })))
  ∧ (∀ (slot number tier limit : Nat) (t : Tier) (s : State), Ready s → slot < 256 → tierOf tier = some t →
    1 ≤ number → number ≤ 65535 → limit < 10 ^ 12 →
    (tableGet s.accounts slot = none →
      exec (.accountAmendChange slot number tier limit) s =
        completes (.accountAmendChange slot number tier limit) .noRecord [] s
      ∧ ∀ balance period current, balance < 2 ^ 63 → 1 ≤ period → period ≤ 65535 →
        current.net.g1 < 2 ^ 63 → current.net.g2 < 2 ^ 63 → current.net.g3 < 2 ^ 63 → current.charges < 2 ^ 63 →
        current.fills ≤ 65535 →
        exec (.accountAmendRewrite slot number tier limit balance period current) s =
          completes (.accountAmendRewrite slot number tier limit balance period current) .noRecord [] s)
    ∧ ∀ a, tableGet s.accounts slot = some a →
      (a.state = .quarantined →
        exec (.accountAmendChange slot number tier limit) s =
          completes (.accountAmendChange slot number tier limit) .corrupt [] s)
      ∧ (a.state ≠ .quarantined → a.checkWord ≠ accountCheck a →
        exec (.accountAmendChange slot number tier limit) s =
          completes (.accountAmendChange slot number tier limit) .corrupt [] (corruptAccount slot a s)))
  ∧ (∀ (slot number tier limit balance period : Nat) (current : PeriodFigures) (s : State), Ready s →
    (tierOf tier = none →
      exec (.accountOpen number tier limit) s = completes (.accountOpen number tier limit) .malformed [] s)
    ∧ (tierOf tier = none ∨ 256 ≤ slot →
      exec (.accountAmendChange slot number tier limit) s =
        completes (.accountAmendChange slot number tier limit) .malformed [] s
      ∧ exec (.accountAmendRewrite slot number tier limit balance period current) s =
        completes (.accountAmendRewrite slot number tier limit balance period current) .malformed [] s))

/-- R51, R52: ACCOUNT STOP and ACCOUNT RESUME of a verified record that is not QUARANTINED move it between OPEN and STOPPED
with a fresh check word; ACCOUNT RETIRE examines references and open sessions, rebuilt for a QUARANTINED record, answers
IN_USE with them when one is nonzero, and otherwise answers the record and frees the slot, without verifying. A FREE slot
answers NO_RECORD; STOP and RESUME of a record that fails verification quarantine it and answer CORRUPT. -/
def Obligations.AccountStopResumeRetireFollowR51R52 : Prop :=
  (∀ (slot : Nat) (s : State) (a : AccountRecord), Ready s → slot < 256 → tableGet s.accounts slot = some a →
    (a.state = .quarantined →
      exec (.accountStop slot) s = completes (.accountStop slot) .state [] s
      ∧ exec (.accountResume slot) s = completes (.accountResume slot) .state [] s)
    ∧ (a.state ≠ .quarantined → a.checkWord = accountCheck a →
      exec (.accountStop slot) s = completes (.accountStop slot) .ok []
        { s with
          accounts := if a.state = .stopped then s.accounts
            else tableSet s.accounts slot (accountStamp { a with state := .stopped }) }
      ∧ exec (.accountResume slot) s = completes (.accountResume slot) .ok []
        { s with
          accounts := if a.state = .opened then s.accounts
            else tableSet s.accounts slot (accountStamp { a with state := .opened }) })
    ∧ (∀ refs opens,
      (a.state ≠ .quarantined ∧ refs = a.references ∧ opens = a.openSessions)
        ∨ (a.state = .quarantined ∧ refs = rebuiltReferences slot s ∧ opens = rebuiltOpen slot s) →
      exec (.accountRetire slot) s =
        if refs = 0 ∧ opens = 0 then
          completes (.accountRetire slot) .ok (accountBytes a) { s with accounts := tableErase s.accounts slot }
        else completes (.accountRetire slot) .inUse (u16 refs ++ u8 opens) s))
  ∧ (∀ (slot : Nat) (s : State), Ready s → slot < 256 →
    (tableGet s.accounts slot = none →
      exec (.accountStop slot) s = completes (.accountStop slot) .noRecord [] s
      ∧ exec (.accountResume slot) s = completes (.accountResume slot) .noRecord [] s
      ∧ exec (.accountRetire slot) s = completes (.accountRetire slot) .noRecord [] s)
    ∧ ∀ a, tableGet s.accounts slot = some a → a.state ≠ .quarantined → a.checkWord ≠ accountCheck a →
      exec (.accountStop slot) s = completes (.accountStop slot) .corrupt [] (corruptAccount slot a s)
      ∧ exec (.accountResume slot) s = completes (.accountResume slot) .corrupt [] (corruptAccount slot a s))

/-- R53, R54, R55: of a verified record that is not QUARANTINED, SETTLE subtracts an amount within the balance and answers
OVER_SETTLE with the balance otherwise; PERIOD CLOSE is refused UNREAD while the statement is unread, and otherwise writes
the statement, zeroes the current figures and advances the period, 65,535 wrapping to 1; STATEMENT RELEASE clears the
unread flag of the statement it names and is refused STATE for any other. A FREE slot
answers NO_RECORD, a QUARANTINED record CORRUPT, and one that fails verification is quarantined and answered CORRUPT. -/
def Obligations.SettlementAndPeriodsFollowR53R55 : Prop :=
  (∀ (slot : Nat) (s : State) (a : AccountRecord), Ready s → slot < 256 → tableGet s.accounts slot = some a →
    a.state ≠ .quarantined → a.checkWord = accountCheck a →
    (∀ amount, amount < 2 ^ 63 →
      exec (.settle slot amount) s =
        if a.balance < amount then completes (.settle slot amount) .overSettle (u64 a.balance) s
        else if amount = 0 then completes (.settle slot amount) .ok (u64 a.balance) s
        else completes (.settle slot amount) .ok (u64 (a.balance - amount))
          { s with
            accounts := tableSet s.accounts slot (accountStamp { a with balance := a.balance - amount }) })
    ∧ (∀ p, a.previous = some p → p.unread = true →
      exec (.periodClose slot) s = completes (.periodClose slot) .unread (u16 p.period) s)
    ∧ ((∀ p, a.previous = some p → p.unread = false) →
      exec (.periodClose slot) s = completes (.periodClose slot) .ok (u16 a.period)
        { s with
          accounts := tableSet s.accounts slot (accountStamp
            { a with
              previous := some
                { period := a.period, closeTime := s.timebase.count, figures := a.current, unread := true }
              current := { net := ByGrade.all 0, charges := 0, fills := 0 }
              period := if a.period < 65535 then a.period + 1 else 1 }) })
    ∧ (∀ n, n ≤ 65535 →
      (a.previous.map Statement.period ≠ some n →
        exec (.statementRelease slot n) s = completes (.statementRelease slot n) .state [] s)
      ∧ ∀ p, a.previous = some p → p.period = n →
        exec (.statementRelease slot n) s = completes (.statementRelease slot n) .ok []
          { s with
            accounts := if p.unread then
                tableSet s.accounts slot (accountStamp { a with previous := some { p with unread := false } })
              else s.accounts }))
  ∧ (∀ (slot amount period : Nat) (s : State), Ready s → slot < 256 → amount < 2 ^ 63 → period ≤ 65535 →
    ∀ c, c = Instr.settle slot amount ∨ c = Instr.periodClose slot ∨ c = Instr.statementRelease slot period →
    (tableGet s.accounts slot = none → exec c s = completes c .noRecord [] s)
    ∧ ∀ a, tableGet s.accounts slot = some a →
      (a.state = .quarantined → exec c s = completes c .corrupt [] s)
      ∧ (a.state ≠ .quarantined → a.checkWord ≠ accountCheck a →
        exec c s = completes c .corrupt [] (corruptAccount slot a s)))

/-- R56: PRICE WRITE replaces the price of a tier and grade and answers the one it replaced; PRICE READ answers all twelve
prices, by tier and within each tier by grade. -/
def Obligations.PriceCommandsFollowR56 : Prop :=
  ∀ (s : State), Ready s →
    (∀ tier t g price, tierOf tier = some t →
      exec (.priceWrite tier g price) s =
        checked (.priceWrite tier g price) [(decide (price ≤ 999999), .malformed)] s .ok
          (u32 ((s.prices.get t).get g))
          { s with prices := s.prices.set t ((s.prices.get t).set g price) })
    ∧ (∀ tier g price, tierOf tier = none →
      exec (.priceWrite tier g price) s = completes (.priceWrite tier g price) .malformed [] s)
    ∧ exec .priceRead s = completes .priceRead .ok
      ([Four.one, Four.two, Four.three, Four.four].flatMap (fun t =>
        [Grade.g1, Grade.g2, Grade.g3].flatMap (fun g => u32 ((s.prices.get t).get g)))) s

/-! ### Compartments and gauging (Chapter 4) -/

/-- R66, R67, R68: COMPARTMENT SETUP, COMPARTMENT SERVICE and RESTATE take their checks in order; SETUP writes grade,
capacity and threshold, RESTATE sets book and base to the value, zeroes both totals and answers what stood before; each
change of book or threshold is followed by the restock comparison. A number
that names no compartment is MALFORMED. -/
def Obligations.CompartmentCommandsFollowR66R68 : Prop :=
  (∀ (n : Nat) (c : CompId) (k : Compartment) (s : State), Ready s → fourOf n = some c → s.compartments.get c = k →
    (∀ g cap th, exec (.compartmentSetup n g cap th) s =
      checked (.compartmentSetup n g cap th)
        [(decide (100 ≤ cap ∧ cap ≤ 20000 ∧ th ≤ 20000), .malformed),
          (g == k.grade || k.state == .outOfService, .state), (cap == k.capacity || k.state != .loading, .state)] s
        .ok []
        (compareRestock c
          { s with compartments := s.compartments.set c { k with grade := g, capacity := cap, threshold := th } }))
    ∧ exec (.compartmentService n .inService) s =
        checked (.compartmentService n .inService) [(k.state != .loading, .busy)] s .ok []
          { s with compartments := s.compartments.set c { k with state := .inService } }
    ∧ exec (.compartmentService n .outOfService) s =
        checked (.compartmentService n .outOfService) [(k.state != .loading, .busy), (!drawnFrom c s, .busy)] s .ok []
          { s with compartments := s.compartments.set c { k with state := .outOfService } }
    ∧ (∀ source v,
      (source = .host v ∨ (source = .gauge ∧ ∃ g f, k.lastGauge = some g ∧ g.figures = some f ∧ f.net = v)) →
      (source = .host v → v < 2 ^ 40) →
      exec (.restate n source) s =
        checked (.restate n source) [(k.state != .loading, .state)] s .ok
          (leSigned 8 k.book ++ u64 k.base ++ u64 k.loaded ++ u64 k.dispensed)
          (compareRestock c
            { s with
              compartments := s.compartments.set c { k with book := v, base := v, loaded := 0, dispensed := 0 } }))
    ∧ ((k.lastGauge = none ∨ ∃ g, k.lastGauge = some g ∧ g.figures = none) →
      exec (.restate n .gauge) s = completes (.restate n .gauge) .state [] s))
  ∧ (∀ (n : Nat) (s : State), Ready s → fourOf n = none →
    (∀ g cap th, exec (.compartmentSetup n g cap th) s = completes (.compartmentSetup n g cap th) .malformed [] s)
    ∧ (∀ target, exec (.compartmentService n target) s = completes (.compartmentService n target) .malformed [] s)
    ∧ (∀ source, exec (.restate n source) s = completes (.restate n source) .malformed [] s)
    ∧ ∀ m v, 2 ^ 40 ≤ v → exec (.restate m (.host v)) s = completes (.restate m (.host v)) .malformed [] s)

/-- R69, R70, R74: COMPARTMENT READ answers the record, the available stock, the present sample and the samples of a gauge
in flight; STRAP WRITE replaces the table whole; STRAP READ answers it; GAUGE takes its checks in order, sets a HOST gauge
in flight and answers ACCEPTED.
A number that names no compartment is MALFORMED. -/
def Obligations.StrapAndGaugeCommandsFollowR69R74 : Prop :=
  (∀ (n : Nat) (c : CompId) (k : Compartment) (s : State), Ready s → fourOf n = some c → s.compartments.get c = k →
    exec (.compartmentRead n) s =
      completes (.compartmentRead n) .ok
        (compartmentBytes k ++ leSigned 8 (k.book - k.committed) ++ sampleBytes k.sample
          ++ (k.gauge.toList.flatMap (fun g => u8 g.samples))) s
    ∧ (∀ points, exec (.strapWrite n points) s =
      checked (.strapWrite n points)
        [(decide (2 ≤ points.length ∧ points.length ≤ 16)
            && points.all (fun p => decide (p.level ≤ 32000 ∧ p.volume ≤ 20000))
            && decide (points.IsChain (fun p q => p.level < q.level ∧ p.volume < q.volume)), .malformed),
          (k.state != .loading && k.gauge.isNone, .busy)] s
        .ok [] { s with compartments := s.compartments.set c { k with strap := some points } })
    ∧ exec (.strapRead n) s =
      completes (.strapRead n) .ok (optional (counted strapPointBytes) k.strap) s
    ∧ exec (.gauge n) s =
      checked (.gauge n)
        [(k.strap.isSome, .state), (k.gauge.isNone, .busy), (k.state != .loading, .busy), (!drawnFrom c s, .busy)] s
        .accepted []
        { s with
          compartments := s.compartments.set c
            { k with gauge := some { origin := .host, samples := 0, recent := [] } } })
  ∧ (∀ (n : Nat) (s : State), Ready s → fourOf n = none →
    exec (.compartmentRead n) s = completes (.compartmentRead n) .malformed [] s
    ∧ (∀ points, exec (.strapWrite n points) s = completes (.strapWrite n points) .malformed [] s)
    ∧ exec (.strapRead n) s = completes (.strapRead n) .malformed [] s
    ∧ exec (.gauge n) s = completes (.gauge n) .malformed [] s)

/-- R71: the gross volume of a level in a well-formed strapping table: the first volume at or below the first point, the
last volume and the over-range mark above the last, and the truncated straight line between neighbours.
R73, R144: the volume correction factor of every coefficient and temperature in range lies within 860,000 to 1,110,000,
is 1,000,000 at 15.0 °C,
and is 1,000,000 less α × (T − 150) / 10 rounded half away from zero. -/
def Obligations.GaugeArithmeticFollowsR71R73 : Prop :=
  (∀ (points : List StrapPoint) (level : Nat), strapOk points = true →
      (∀ p rest, points = p :: rest → level ≤ p.level → grossOf level (some points) = (p.volume * 1000000, false))
      ∧ (∀ front p, points = front ++ [p] → p.level < level → grossOf level (some points) = (p.volume * 1000000, true))
      ∧ (∀ front lo hi back, points = front ++ lo :: hi :: back → lo.level < level → level ≤ hi.level →
        grossOf level (some points) =
          (lo.volume * 1000000
            + ((hi.volume - lo.volume) * 1000000 * (level - lo.level)) / (hi.level - lo.level), false)))
  ∧ (∀ (alpha : Nat) (t : Int), alpha ≤ 2000 → -400 ≤ t → t ≤ 850 →
      860000 ≤ vcf alpha t ∧ vcf alpha t ≤ 1110000 ∧ vcf alpha 150 = 1000000
      ∧ (vcf alpha t : Int) =
        1000000 - (alpha * (t - 150) : Int).sign * ((2 * |(alpha * (t - 150) : Int)| + 10) / 20))

/-- R72, R75, R76: the sampling of all four compartments, and what one compartment's sample does to it: without a gauge it
stands alone; a sample that is not GOOD ends the gauge with PROBE_FAULT and its PROBE fault; a GOOD one is counted, and
completes the gauge when 16 samples agree within 2.0 mm, or unsettled at the 240th. R73, R75: a completed gauge has the
mean level rounded down, the mean temperature rounded toward zero and clamped, gross by the strapping table, net by the
correction factor, variance book less net, OVER_RANGE before SETTLED or UNSETTLED, and the UNSETTLED fault with the spread.
A host gauge's end raises DONE. R170, R174: a load gauge's end writes the before gauge of an ARMED order, or completes a
SETTLING one: after gauge, docket variance, gauge variance where both gauges are present, compartment back in service, LOAD.
The model's choices: the sample that fails is counted and each temperature clamped as it is taken (notes/assumptions/23.md);
the compartments are sampled 1 to 4 (notes/assumptions/44.md). -/
def Obligations.ProbeSamplingFollowsR72R76 : Prop :=
  (∀ (c : CompId) (k : Compartment) (r : RawSample) (s t : State), s.compartments.get c = k →
    t = { s with compartments := s.compartments.set c { k with sample := r } } →
    (s.supply.power = .running → ∀ a b d, exec (.probeSample ⟨a, b, d, r⟩) s = happens (tryOpenInlet
      (takeSample .four r (takeSample .three d (takeSample .two b (takeSample .one a s))))))
    ∧ (k.gauge = none → takeSample c r s = t)
    ∧ ∀ g, k.gauge = some g →
      (∀ detail,
        (r.statusFault = true ∧ detail = 0) ∨ (r.statusFault = false ∧ 32000 < r.level ∧ detail = 1)
          ∨ (r.statusFault = false ∧ r.level ≤ 32000 ∧ (r.temperature < -500 ∨ 1000 < r.temperature) ∧ detail = 2) →
        takeSample c r s = gaugeEnded c g.origin none (report .gauge .probe c.number detail
          { t with
            compartments := t.compartments.set c
              { k with
                sample := r, gauge := none, outcome := .completed
                lastGauge := some
                  { time := s.timebase.count, status := .probeFault, figures := none, samples := g.samples + 1 } } }))
      ∧ (∀ g', r.statusFault = false → r.level ≤ 32000 → -500 ≤ r.temperature → r.temperature ≤ 1000 →
        g' = { g with
          samples := g.samples + 1
          recent := ((r.level, max (-400) (min r.temperature 850)) :: g.recent).take 16 } →
        takeSample c r s =
          if 16 ≤ g'.samples ∧ spread (g'.recent.map Prod.fst) ≤ 20 then completeGauge c g' true t
          else if 240 ≤ g'.samples then completeGauge c g' false t
          else { t with compartments := t.compartments.set c { k with sample := r, gauge := some g' } }))
  ∧ (∀ (c : CompId) (k : Compartment) (g : Gauge) (settled : Bool) (s : State), s.compartments.get c = k →
    g.recent.length = 16 →
    ∀ (level gross net : Nat) (temp : Int) (above : Bool),
      level = (g.recent.map Prod.fst).sum / 16 →
      temp = max (-400) (min (Int.tdiv (g.recent.map Prod.snd).sum 16) 850) →
      grossOf level k.strap = (gross, above) →
      net = gross * vcf (alphaOf k.grade s) temp / 1000000 →
      completeGauge c g settled s = gaugeEnded c g.origin (some net)
        ((if settled then id
          else report .gauge .unsettled c.number ((g.recent.map Prod.fst).foldl max 0
            - (g.recent.map Prod.fst).foldl min ((g.recent.map Prod.fst).headD 0) : Nat))
          { s with
            compartments := s.compartments.set c
              { k with
                gauge := none, outcome := .completed
                lastGauge := some
                  { time := s.timebase.count
                    status := if above then .overRange else if settled then .settled else .unsettled
                    figures := some
                      { level := level, temperature := temp, gross := gross, net := net, variance := k.book - net }
                    samples := g.samples } } }))
  ∧ (∀ (c : CompId) (net : Option Nat) (s : State), gaugeEnded c .host net s = raise (.doneComp c) s
    ∧ ∀ slot o, activeOrder s = some (slot, o) →
      (o.state = .armed → gaugeEnded c .load net s =
        { s with
          loads := { s.loads with
            orders := tableSet s.loads.orders slot { o with gaugeBefore := net }, beforeEnded := true } })
      ∧ (o.state = .settling → ∀ k, s.compartments.get o.compartment = k →
        gaugeEnded c .load net s = raise (.load slot) (compareRestock o.compartment
          { s with
            loads := { s.loads with
              orders := tableSet s.loads.orders slot
                { o with
                  state := .complete, gaugeAfter := net, completed := some s.timebase.count
                  docketVariance := some ((o.net : Int) - o.expected * 1000000)
                  gaugeVariance := (match o.gaugeBefore, net with
                    | some b, some a => some ((a : Int) - b - o.net)
                    | _, _ => none) }
              settleTimer := none, watch := none }
            compartments := s.compartments.set o.compartment { k with state := .inService } })))

/-- R64: the restock comparison: available stock below threshold × 10^6 with the flag clear sets it and raises one RESTOCK
notice; at or above it with the flag set clears it; otherwise nothing changes. -/
def Obligations.RestockComparisonFollowsR64 : Prop :=
  ∀ (c : CompId) (k : Compartment) (s : State), s.compartments.get c = k →
    (k.book - k.committed < (k.threshold : Int) * 1000000 → k.restockNeeded = false →
      compareRestock c s = raise (.restock c)
        { s with compartments := s.compartments.set c { k with restockNeeded := true } })
    ∧ ((k.threshold : Int) * 1000000 ≤ k.book - k.committed → k.restockNeeded = true →
      compareRestock c s = { s with compartments := s.compartments.set c { k with restockNeeded := false } })
    ∧ ((k.book - k.committed < (k.threshold : Int) * 1000000 ↔ k.restockNeeded = true) → compareRestock c s = s)

/-! ### Authorisation (Chapter 5) -/

/-- R80: a tag whose resolution is a machine tank goes through checks 1 to 5 and 6 to 9 in order, the first that fails
naming the refusal, and otherwise to the hold computation with the terms of R83; records that verify are not changed.
R80, R90: a tag that is not in the index passes checks 1 to 5 first; a range or default policy REFUSE then refuses it
UNKNOWN_TAG, REFER refers it, and ALLOW takes checks 8 and 9 and the hold computation with the entry's terms.
R83: the terms of a machine's tank; the remainder of a damaged record that breaks the law of R2 is a free value, the model's
choice (notes/assumptions/9.md). R79, R81, R90: what the authorisation does with the judgement: a refusal writes the last
refusal alone, a referral makes the hose REFERRED with its deadline and raises REFER, a grant opens the session. -/
def Obligations.TagChecksFollowR80 : Prop :=
  (∀ (id : HoseId) (tag slot : Nat) (kind : TankKind) (k : Tank) (m : MachineRecord) (a : AccountRecord) (s : State),
      tableGet s.tagIndex tag = some { slot := slot, tank := kind } → tableGet s.machines slot = some m →
      m.checkWord = machineCheck m → tableGet s.accounts m.account = some a → a.checkWord = accountCheck a →
      (kind = .fuel → m.fuel = some k) → (kind = .fluid → m.fluid = some k) →
      judgeTag id tag s =
        (match firstFailing
            [(!s.field.levels.estop, Reason.estop), (s.field.levels.park, .vehicleMoving),
              ((s.hoses.get id).state != .outOfService && (s.hoses.get id).state != .locked
                && !hoseStopValid id s, .hoseUnavailable),
              ((s.store.meters.get id.meter).calibrated, .uncalibrated),
              ((s.hoses.get id).state != .complete, .uncollected),
              (m.state != .retiring, .retired), (m.state != .quarantined, .corrupt), (m.state != .suspended, .suspended),
              ((match kind with
                | .fuel => m.fuelLink
                | .fluid => m.fluidLink).isNone, .inSession),
              ((kind == .fluid) == (id == .h3), .misfuel), (a.state == .opened, .accountStopped)] with
          | some r => .refused r
          | none =>
            match settleHold id (machineTerms .tag (some tag) none slot kind k m) a s with
            | .error r => .refused r
            | .ok c => .granted (machineTerms .tag (some tag) none slot kind k m) c, s))
  ∧ (∀ (id : HoseId) (tag : Nat) (s : State), hoseCheck id s = none →
      (∀ i e, resolve tag s = .range i e →
        (e.policy = .refuse → judgeTag id tag s = (.refused .unknownTag, s))
        ∧ (e.policy = .refer → judgeTag id tag s = (.referred { tag := tag, entry := some i }, s))
        ∧ (e.policy = .allow → ∀ a, tableGet s.accounts e.account = some a → a.checkWord = accountCheck a →
          judgeTag id tag s =
            (match firstFailing [((e.grades == ⟨false, false, true⟩) == (id == .h3), Reason.misfuel),
                (a.state == .opened, .accountStopped)] with
              | some r => .refused r
              | none =>
                match settleHold id
                    { kind := .range, tag := some tag, machine := none, account := e.account, grades := e.grades,
                      limit := e.limit, preset := none, allowance := none, ceiling := none } a s with
                | .error r => .refused r
                | .ok c => .granted
                    { kind := .range, tag := some tag, machine := none, account := e.account, grades := e.grades,
                      limit := e.limit, preset := none, allowance := none, ceiling := none } c, s)))
      ∧ (∀ p, resolve tag s = .default p →
        judgeTag id tag s =
          (if p = .refer then .referred { tag := tag, entry := none } else .refused .unknownTag, s)))
  ∧ (∀ (kind : IdentityKind) (tag preset : Option Nat) (slot : Nat) (tank : TankKind) (k : Tank) (m : MachineRecord),
      machineTerms kind tag preset slot tank k m =
        { kind := kind, tag := tag, machine := some (slot, tank), account := m.account, grades := k.grades,
          limit := k.capacity, preset := preset, ceiling := k.ceiling,
          allowance := match tank with
            | .fuel => some (minus (m.allowance * 1000000 + m.overrun) (m.used + m.held) / 1000000)
            | .fluid => none })
  ∧ (∀ (id : HoseId) (tag : Nat) (s u : State) (h : Hose), u.hoses.get id = h →
      (∀ r, judgeTag id tag s = (.refused r, u) → authoriseTag id tag s =
        { u with
          hoses := u.hoses.set id
            { h with lastRefusal := some { time := u.timebase.count, tag := some tag, reason := r } } })
      ∧ (∀ w, judgeTag id tag s = (.referred w, u) → authoriseTag id tag s = raise (.refer id)
        { u with
          hoses := u.hoses.set id
            { h with
              state := .referred, waiting := some w
              referTimer := some (u.timebase.now + h.setup.referDeadline * 1000) } })
      ∧ (∀ t c, judgeTag id tag s = (.granted t c, u) → authoriseTag id tag s = openSession id t c u))

/-- R84, R85, R86: the hold. Without a candidate in the preference list the request is refused WRONG_GRADE. The first
candidate whose available stock covers its unreduced hold is selected with that hold; failing that, the candidate with the
largest available stock, the earliest on a tie, with its whole litres. A hold below the minimum fill refuses the request:
NO_STOCK when it was reduced to stock, otherwise the first of ALLOWANCE, CREDIT, LIMIT that equals the hold. -/
def Obligations.HoldFollowsR84R86 : Prop :=
  ∀ (id : HoseId) (t : Terms) (a : AccountRecord) (s : State) (cs : List (CompId × Grade))
    (credit : Grade → Option Nat) (full : Grade → Nat) (stock : CompId → Int),
    cs = (s.hoses.get id).setup.preference.filterMap (fun c =>
      (s.compartments.get c).grade.bind (fun g =>
        if inSet t.grades g = true ∧ (s.compartments.get c).state = .inService then some (c, g) else none)) →
    (∀ g, credit g = if (s.prices.get a.tier).get g = 0 then none
      else some (((a.limit : Int) - a.balance - a.held).toNat / (s.prices.get a.tier).get g)) →
    (∀ g, full g = (t.preset.toList ++ t.allowance.toList ++ (credit g).toList).foldl min t.limit) →
    (∀ c, stock c = (s.compartments.get c).book - (s.compartments.get c).committed) →
    (cs = [] → settleHold id t a s = .error .wrongGrade)
    ∧ (∀ front c g back, cs = front ++ (c, g) :: back →
      (∀ p ∈ front, stock p.1 < (full p.2 : Int) * 1000000) → (full g : Int) * 1000000 ≤ stock c →
      settleHold id t a s =
        if (s.hoses.get id).setup.minFill ≤ full g then .ok { comp := c, grade := g, hold := full g }
        else .error (if t.allowance = some (full g) then .allowance
          else if credit g = some (full g) then .credit else .limit))
    ∧ (∀ front c g back, cs = front ++ (c, g) :: back →
      (∀ p ∈ cs, stock p.1 < (full p.2 : Int) * 1000000) → (∀ p ∈ front, stock p.1 < stock c) →
      (∀ p ∈ back, stock p.1 ≤ stock c) →
      settleHold id t a s =
        if (s.hoses.get id).setup.minFill ≤ (stock c).toNat / 1000000 then
          .ok { comp := c, grade := g, hold := (stock c).toNat / 1000000 }
        else .error .noStock)

/-- R87, R88, R89: what a successful authorisation writes: for a machine's tank the link and day held with a fresh check
word, and no machine record for a RANGE or REFERRED session; the money hold and the open session of the account; the
commitment of the compartment, with the restock comparison and, where a host gauge is in flight there, its abort with DONE
(R77); and the hose: a new session with the next number, manifold open, pump running, main valve closed, READY with its
timeout; its channel opened. Other hoses, the readers, the prices, the Metrology Store, the load orders and the banks are
unchanged. -/
def Obligations.AuthorisationTakesHoldsR88 : Prop :=
  ∀ (id : HoseId) (t : Terms) (c : Choice) (a : AccountRecord) (s u : State) (price : Nat) (h : Hose),
    tableGet s.accounts t.account = some a →
    price = (s.prices.get a.tier).get c.grade → s.hoses.get id = h → u = openSession id t c s →
    (t.machine = none → u.machines = s.machines)
    ∧ (∀ slot tank m, t.machine = some (slot, tank) → tableGet s.machines slot = some m →
      u.machines = tableSet s.machines slot (machineStamp
        (match tank with
          | .fuel => { m with fuelLink := some id, held := c.hold * 1000000 }
          | .fluid => { m with fluidLink := some id })))
    ∧ u.accounts = tableSet s.accounts t.account (accountStamp
      { a with held := a.held + c.hold * price, openSessions := a.openSessions + 1 })
    ∧ (∀ k v, s.compartments.get c.comp = k →
      v = compareRestock c.comp
        { s with
          compartments := s.compartments.set c.comp { k with committed := k.committed + c.hold * 1000000 } } →
      (∀ g, k.gauge = some g → g.origin = .host →
        u.compartments = v.compartments.set c.comp
          { v.compartments.get c.comp with gauge := none, outcome := .aborted }
        ∧ u.notices = (raise (.doneComp c.comp) v).notices)
      ∧ ((∀ g, k.gauge = some g → g.origin ≠ .host) → u.compartments = v.compartments ∧ u.notices = v.notices))
    ∧ (u.compartments.get c.comp).committed = (s.compartments.get c.comp).committed + c.hold * 1000000
    ∧ (u.compartments.get c.comp).book = (s.compartments.get c.comp).book
    ∧ (∀ d, d ≠ c.comp → u.compartments.get d = s.compartments.get d)
    ∧ u.hoses = s.hoses.set id
      { h with
        state := .ready
        outputs := { h.outputs with pump := true, manifold := some c.comp, mainValve := false, staged := 0 }
        lastSource := some c.comp
        leakLatch := false
        session := some
          { number := if h.lastNumber < 65535 then h.lastNumber + 1 else 1, kind := t.kind, tag := t.tag,
            machine := t.machine, account := t.account, compartment := c.comp, grade := c.grade, price := price,
            hold := c.hold, moneyHold := c.hold * price,
            setPoint := min h.setup.maxFlow (t.ceiling.getD h.setup.maxFlow), gross := 0, net := 0, overrun := 0,
            charge := none, pauseCount := 0, pauseReason := none, saturated := false, uncompensated := false,
            stopCause := none, authorised := s.timebase.count, started := none, ended := none, due := false,
            collected := false }
        lastNumber := if h.lastNumber < 65535 then h.lastNumber + 1 else 1
        readyTimer := some (s.timebase.now + h.setup.readyTimeout * 1000)
        resumeTimer := none, settleTimer := none, lowFlowRun := 0, overspeedRun := 0, stopFaultFound := false
        windowAfterClosing := false }
    ∧ u.channels = s.channels.set id.meter
      { s.channels.get id.meter with
        grossResidue := 0, netResidue := 0, debt := 0, reverseMark := false, illegal := 0, unattributed := 0 }
    ∧ (u.readers, u.prices, u.store, u.loads, u.banks, u.timebase, u.port, u.tagIndex, u.ranges, u.field, u.pending)
      = (s.readers, s.prices, s.store, s.loads, s.banks, s.timebase, s.port, s.tagIndex, s.ranges, s.field, s.pending)

/-- R82: AUTHORISE MANUAL of a record that verifies, whose account verifies: a hose with a request, an open session or a
run answers STATE; otherwise checks 1 to 5, 6 to 10 in order; a refusal answers REFUSED with the reason, status CORRUPT for
a QUARANTINED record, and writes the last refusal; otherwise the session opens and the answer is AUTHORISED with its
figures. A number that no record holds, or whose record lacks the tank, is refused NO_RECORD after checks 1 to 5;
a record that fails verification is quarantined and refused CORRUPT. -/
def Obligations.AuthoriseManualFollowsR82 : Prop :=
  (∀ (n : Nat) (id : HoseId) (number slot : Nat) (tank : TankKind) (preset : Option Nat) (k : Tank) (m : MachineRecord)
    (a : AccountRecord) (s : State), Ready s → hoseOf n = some id → 1 ≤ number → number ≤ 999999 →
    (∀ p, preset = some p → 1 ≤ p ∧ p ≤ 20000) →
    tableFind (fun _ r => r.number == number) s.machines = some (slot, m) → m.checkWord = machineCheck m →
    tableGet s.accounts m.account = some a → a.checkWord = accountCheck a →
    (tank = .fuel → m.fuel = some k) → (tank = .fluid → m.fluid = some k) →
    ([HoseState.referred, .ready, .flowing, .slowing, .paused, .stopping, .proveReady, .proveFlowing,
        .proveHeld].contains (s.hoses.get id).state = true →
      exec (.authoriseManual n number tank preset) s =
        completes (.authoriseManual n number tank preset) .state [] s)
    ∧ ([HoseState.idle, .complete, .locked, .outOfService].contains (s.hoses.get id).state = true →
      ∀ (verdict : Except Reason Choice), verdict = (match firstFailing
          [(!s.field.levels.estop, Reason.estop), (s.field.levels.park, .vehicleMoving),
            ((s.hoses.get id).state != .outOfService && (s.hoses.get id).state != .locked
              && !hoseStopValid id s, .hoseUnavailable),
            ((s.store.meters.get id.meter).calibrated, .uncalibrated),
            ((s.hoses.get id).state != .complete, .uncollected),
            (m.state != .retiring, .retired), (m.state != .quarantined, .corrupt), (m.state != .suspended, .suspended),
            ((match tank with
              | .fuel => m.fuelLink
              | .fluid => m.fluidLink).isNone, .inSession),
            ((tank == .fluid) == (id == .h3), .misfuel), (a.state == .opened, .accountStopped),
            (m.manualPermitted, .manualRefused)] with
          | some r => .error r
          | none => settleHold id (machineTerms .manual none preset slot tank k m) a s) →
      (∀ r, verdict = .error r →
        exec (.authoriseManual n number tank preset) s =
          completes (.authoriseManual n number tank preset) (if r = .corrupt then .corrupt else .ok)
            (u8 1 ++ u8 (reasonCode r))
            { s with
              hoses := s.hoses.set id
                { s.hoses.get id with
                  lastRefusal := some { time := s.timebase.count, tag := none, reason := r } } })
      ∧ (∀ c u, verdict = .ok c → u = openSession id (machineTerms .manual none preset slot tank k m) c s →
        exec (.authoriseManual n number tank preset) s =
          completes (.authoriseManual n number tank preset) .ok
            (u8 0 ++ (u.hoses.get id).session.toList.flatMap (fun x =>
              u16 x.number ++ u16 x.hold ++ u8 x.compartment.number ++ u8 (gradeCode x.grade) ++ u32 x.price
                ++ u16 x.setPoint)) u)))
  ∧ (∀ (n : Nat) (id : HoseId) (number : Nat) (tank : TankKind) (preset : Option Nat) (s : State)
      (refused : Reason → State → State), Ready s → hoseOf n = some id → 1 ≤ number → number ≤ 999999 →
    (∀ p, preset = some p → 1 ≤ p ∧ p ≤ 20000) → (s.hoses.get id).state = .idle → hoseCheck id s = none →
    (∀ r u, refused r u = { u with
      hoses := u.hoses.set id
        { s.hoses.get id with lastRefusal := some { time := s.timebase.count, tag := none, reason := r } } }) →
    ((tableFind (fun _ r => r.number == number) s.machines = none
        ∨ ∃ slot m, tableFind (fun _ r => r.number == number) s.machines = some (slot, m) ∧ tankOf tank m = none) →
      exec (.authoriseManual n number tank preset) s =
        completes (.authoriseManual n number tank preset) .ok (u8 1 ++ u8 (reasonCode .noRecord)) (refused .noRecord s))
    ∧ (∀ slot m, tableFind (fun _ r => r.number == number) s.machines = some (slot, m) →
      (tankOf tank m).isSome = true → m.state = .active ∨ m.state = .suspended → m.checkWord ≠ machineCheck m →
      exec (.authoriseManual n number tank preset) s =
        completes (.authoriseManual n number tank preset) .corrupt (u8 1 ++ u8 (reasonCode .corrupt))
          (refused .corrupt (corruptMachine slot m s))))

/-- R91, R92: REFER REPLY at a hose that is not REFERRED answers STATE. ACCEPT judges the account first: FREE, not OPEN or
failing answers ACCOUNT_STOPPED and leaves the hose waiting; then checks 1 to 4, the class and the hold decide between a
session and a refusal. REFUSE ends the request HOST_REFUSED. RECHECK authorises the present tag again. What RECHECK's outcomes
carry, the figures of R82 or the reason, is the model's choice (notes/assumptions/12.md). -/
def Obligations.ReferRepliesFollowR91R92 : Prop :=
  ∀ (n : Nat) (id : HoseId) (s : State) (h : Hose), Ready s → hoseOf n = some id → s.hoses.get id = h →
    (h.state ≠ .referred →
      exec (.referReplyRefuse n) s = completes (.referReplyRefuse n) .state [] s
      ∧ (∀ account grades limit, account < 256 → permittedSet grades = true → 1 ≤ limit → limit ≤ 20000 →
        exec (.referReplyAccept n account grades limit) s =
          completes (.referReplyAccept n account grades limit) .state [] s)
      ∧ exec (.referReplyRecheck n) s = completes (.referReplyRecheck n) .state [] s)
    ∧ (h.state = .referred →
      ∀ (w : Waiting) (ended : Reason → State), h.waiting = some w →
      (∀ r, ended r = { s with
        hoses := s.hoses.set id
          { h with
            state := .idle, waiting := none, referTimer := none
            lastRefusal := some { time := s.timebase.count, tag := some w.tag, reason := r } }
        notices := s.notices.filter (fun x => x != .refer id) }) →
      exec (.referReplyRefuse n) s = completes (.referReplyRefuse n) .ok [] (ended .hostRefused)
      ∧ (∀ account grades limit, account < 256 → permittedSet grades = true → 1 ≤ limit → limit ≤ 20000 →
        (tableGet s.accounts account = none →
          exec (.referReplyAccept n account grades limit) s =
            completes (.referReplyAccept n account grades limit) .accountStopped [] s)
        ∧ ∀ a, tableGet s.accounts account = some a → a.state = .opened → a.checkWord ≠ accountCheck a →
          exec (.referReplyAccept n account grades limit) s =
            completes (.referReplyAccept n account grades limit) .accountStopped [] (corruptAccount account a s))
      ∧ (∀ account grades limit a, account < 256 → permittedSet grades = true → 1 ≤ limit → limit ≤ 20000 →
        tableGet s.accounts account = some a → a.checkWord = accountCheck a →
        (a.state ≠ .opened →
          exec (.referReplyAccept n account grades limit) s =
            completes (.referReplyAccept n account grades limit) .accountStopped [] s)
        ∧ (a.state = .opened →
          ∀ (terms : Terms) (verdict : Except Reason Choice), terms = replyTerms (some w.tag) account grades limit →
          verdict = (match firstFailing
              [(!s.field.levels.estop, Reason.estop), (s.field.levels.park, .vehicleMoving),
                (!hoseStopValid id s, .hoseUnavailable), ((s.store.meters.get id.meter).calibrated, .uncalibrated),
                ((grades == ⟨false, false, true⟩) == (id == .h3), .misfuel)] with
              | some r => .error r
              | none => settleHold id terms a s) →
          (∀ r, verdict = .error r →
            exec (.referReplyAccept n account grades limit) s =
              completes (.referReplyAccept n account grades limit) .ok (u8 1 ++ u8 (reasonCode r)) (ended r))
          ∧ (∀ c u, verdict = .ok c → u = openSession id terms c (endWaiting id s) →
            exec (.referReplyAccept n account grades limit) s =
              completes (.referReplyAccept n account grades limit) .ok (u8 0 ++ authorisedBytes id u) u)))
      ∧ (∀ p, (s.readers.get id).present = some p →
        (∀ x, judgeTag id p.tag s = (.referred x, s) →
          exec (.referReplyRecheck n) s = completes (.referReplyRecheck n) .ok (u8 0) (raise (.refer id)
            { s with
              hoses := s.hoses.set id
                { h with waiting := some x, referTimer := some (s.timebase.now + h.setup.referDeadline * 1000) } }))
        ∧ (∀ terms c u, judgeTag id p.tag s = (.granted terms c, s) →
          u = openSession id terms c (endWaiting id s) →
          exec (.referReplyRecheck n) s =
            completes (.referReplyRecheck n) .ok (u8 1 ++ authorisedBytes id u) u)
        ∧ (∀ r, judgeTag id p.tag s = (.refused r, s) → p.tag = w.tag →
          exec (.referReplyRecheck n) s =
            completes (.referReplyRecheck n) .ok (u8 2 ++ u8 (reasonCode r)) (ended r))))

/-! ### Hose points (Chapter 6) -/

/-- R96, R97: HOSE SETUP clamps maximum flow to the hardware ceiling and slow flow to the maximum flow, answers MALFORMED
for any other field outside its range and BUSY for a hose with a request, a session or a run, and otherwise replaces the
fields whole and answers the record as it now stands. -/
def Obligations.HoseSetupFollowsR96R97 : Prop :=
  (∀ (n : Nat) (id : HoseId) (f : HoseSetupFields) (cs : List CompId) (maxFlow slowFlow : Nat) (h : Hose) (s : State),
    Ready s → hoseOf n = some id → s.hoses.get id = h → f.preference = cs.map Four.number →
    maxFlow = min f.maxFlow (match id with
      | .h1 => 1000
      | .h2 => 200
      | .h3 => 80) →
    slowFlow = min f.slowFlow maxFlow →
    ∀ (set : HoseSetup), set =
      { preference := cs, maxFlow := maxFlow, minFill := f.minFill, slowDown := f.slowDown, slowFlow := slowFlow,
        lead := f.lead, startDuty := f.startDuty, readyTimeout := f.readyTimeout, resumeWindow := f.resumeWindow,
        noFlowWindows := f.noFlowWindows, noFlowThreshold := f.noFlowThreshold, stopSettle := f.stopSettle,
        creepLimit := f.creepLimit, rewindLimit := f.rewindLimit, referDeadline := f.referDeadline,
        collectionRequired := f.collectionRequired } →
    exec (.hoseSetup n f) s =
      checked (.hoseSetup n f)
        [(decide (1 ≤ cs.length ∧ cs.length ≤ 4 ∧ cs.Nodup ∧ 10 ≤ maxFlow ∧ 1 ≤ f.minFill ∧ f.minFill ≤ 500
            ∧ f.slowDown ≤ 100 ∧ 5 ≤ slowFlow ∧ slowFlow ≤ 200 ∧ f.lead ≤ 200 ∧ f.startDuty ≤ 1000
            ∧ 10 ≤ f.readyTimeout ∧ f.readyTimeout ≤ 600 ∧ 5 ≤ f.resumeWindow ∧ f.resumeWindow ≤ 300
            ∧ 2 ≤ f.noFlowWindows ∧ f.noFlowWindows ≤ 255 ∧ f.noFlowThreshold ≤ 50 ∧ 1 ≤ f.stopSettle
            ∧ f.stopSettle ≤ 30 ∧ 1 ≤ f.creepLimit ∧ f.creepLimit ≤ 50 ∧ 5 ≤ f.rewindLimit ∧ f.rewindLimit ≤ 120
            ∧ 5 ≤ f.referDeadline ∧ f.referDeadline ≤ 120), .malformed),
          ([HoseState.idle, .complete, .locked, .outOfService].contains h.state, .busy)] s
        .ok (setupBytes id { h with setup := set }) { s with hoses := s.hoses.set id { h with setup := set } })
  ∧ (∀ (n : Nat) (f : HoseSetupFields) (s : State), Ready s → hoseOf n = none →
    exec (.hoseSetup n f) s = completes (.hoseSetup n f) .malformed [] s)

/-- R98, R99, R101: HOSE READ and FIELD STATUS answer their records, FIELD STATUS then clearing every change flag; HOSE
SERVICE takes a hose at rest without a running rewind out of service, keeping the state to return to, and brings it back to
that state; every other hose in service answers BUSY. Two codings in the response of FIELD STATUS, a temperature's validity
and the level of DRIVE PERMIT, are the model's choice (notes/assumptions/12.md). -/
def Obligations.HoseReadServiceFieldStatusFollowR98R101 : Prop :=
  (∀ (n : Nat) (id : HoseId) (h : Hose) (s : State), Ready s → hoseOf n = some id → s.hoses.get id = h →
    exec (.hoseRead n) s =
      completes (.hoseRead n) .ok
        (setupBytes id h ++ u8 (hoseStateCode h.state)
          ++ (if h.state = .outOfService then u8 (hoseStateCode (h.returnState.getD .idle)) else [])
          ++ outputBytes h.outputs ++ firstOf h.outputs.reel ++ u8 (rewindOutcomeCode h.rewindOutcome)
          ++ flagByte h.leakLatch) s
    ∧ exec .fieldStatus s = completes .fieldStatus .ok (fieldBytes s)
      { s with
        field :=
          { s.field with
            changed := Switches.none, pulserAChanged := ByFour.all false, pulserBChanged := ByFour.all false
            tempChanged := ByHose.all false } }
    ∧ ([HoseState.idle, .complete, .locked].contains h.state = true →
      exec (.hoseService n .inService) s = completes (.hoseService n .inService) .ok [] s
      ∧ exec (.hoseService n .outOfService) s =
        checked (.hoseService n .outOfService) [(!h.outputs.reel, .busy)] s .ok []
          { s with hoses := s.hoses.set id { h with state := .outOfService, returnState := some h.state } })
    ∧ (h.state = .outOfService →
      exec (.hoseService n .outOfService) s = completes (.hoseService n .outOfService) .ok [] s
      ∧ ∀ back, h.returnState = some back → exec (.hoseService n .inService) s =
        completes (.hoseService n .inService) .ok []
          { s with hoses := s.hoses.set id { h with state := back, returnState := none } })
    ∧ ([HoseState.idle, .complete, .locked, .outOfService].contains h.state = false →
      exec (.hoseService n .outOfService) s = completes (.hoseService n .outOfService) .busy [] s
      ∧ exec (.hoseService n .inService) s = completes (.hoseService n .inService) .ok [] s))
  ∧ (∀ (n : Nat) (s : State), Ready s → hoseOf n = none →
    exec (.hoseRead n) s = completes (.hoseRead n) .malformed [] s
    ∧ ∀ target, exec (.hoseService n target) s = completes (.hoseService n target) .malformed [] s)

/-- R108, R109: REWIND takes its checks in order and starts the motor with its timer; a running rewind ends STOWED at the
closing of the stow switch and LIMIT, with REEL, at the timer, raising DONE; a stow switch that moves without a running
rewind changes only its level, its flag and DRIVE PERMIT. That an expiry row moves the instant and the capture counter on to
its own is the model's choice (notes/assumptions/19.md). -/
def Obligations.RewindFollowsR108R109 : Prop :=
  (∀ (id : HoseId) (h : Hose) (s : State), s.supply.power = .running → s.hoses.get id = h →
    (s.store.write = none →
      exec (.rewind id.number) s =
        checked (.rewind id.number)
          [(!h.outputs.reel, .busy), ([HoseState.idle, .complete, .locked].contains h.state, .state),
            (!s.field.levels.offHook.get id && !s.field.levels.stow.get id && !s.field.levels.estop, .state)] s
          .accepted []
          { s with
            hoses := s.hoses.set id
              { h with
                outputs := { h.outputs with reel := true }
                rewindTimer := some (s.timebase.now + h.setup.rewindLimit * 1000) } })
    ∧ (∀ closed moved, s.field.levels.stow.get id ≠ closed →
      moved = { s with
        field := { s.field with
          levels := { s.field.levels with stow := s.field.levels.stow.set id closed }
          changed := { s.field.changed with stow := s.field.changed.stow.set id true } } } →
      (closed = false ∨ h.outputs.reel = false → exec (.stowSwitch id closed) s = happens moved)
      ∧ (closed = true → h.outputs.reel = true →
        exec (.stowSwitch id closed) s = happens (raise (.doneHose id)
          { moved with
            hoses := s.hoses.set id
              { h with
                outputs := { h.outputs with reel := false }, rewindTimer := none, rewindOutcome := .stowed } })))
    ∧ (∀ t, h.rewindTimer = some t → h.outputs.reel = true →
      exec (.rewindTimerExpiry id) s = happens (report (.hose id) .reel id.number 0 (raise (.doneHose id)
        { reachInstant t s with
          hoses := s.hoses.set id
            { h with
              outputs := { h.outputs with reel := false }, rewindTimer := none, rewindOutcome := .limit } }))))
  ∧ (∀ (n : Nat) (s : State), Ready s → hoseOf n = none →
    exec (.rewind n) s = completes (.rewind n) .malformed [] s)

/-- R101, R104: the start of a PWM period gives every hose's active duty its staged duty; a line temperature reading is
taken with its flag set exactly when its validity, −500 to +1000, changes; the seal switch changes its level and its flag. -/
def Obligations.PwmTemperatureSealFollowR101R104 : Prop :=
  ∀ (s : State), s.supply.power = .running →
    (∃ t, exec .pwmPeriodStart s = happens t
      ∧ t = { s with hoses := t.hoses }
      ∧ ∀ id, t.hoses.get id = { s.hoses.get id with
          outputs := { (s.hoses.get id).outputs with active := (s.hoses.get id).outputs.staged } })
    ∧ (∀ id reading, exec (.lineTemperatureValidityChange id reading) s = happens
      { s with
        field := { s.field with
          lineTemp := s.field.lineTemp.set id.meter reading
          tempChanged := if (-500 ≤ s.field.lineTemp.get id.meter ∧ s.field.lineTemp.get id.meter ≤ 1000)
              ↔ (-500 ≤ reading ∧ reading ≤ 1000) then s.field.tempChanged
            else s.field.tempChanged.set id true } })
    ∧ (∀ closed, s.field.levels.sealClosed ≠ closed →
      exec (.sealSwitch closed) s = happens
        { s with
          field := { s.field with
            levels := { s.field.levels with sealClosed := closed }
            changed := { s.field.changed with sealClosed := true } } })

/-! ### Dispensing sessions (Chapter 7) -/

/-- R128, R129, R130: the close of a session of any kind: ended, charge and collection due are written, with the given cause
or the one of STOPPING; account and compartment take their parts; the outputs rest, the timers stop, SESSION_END is raised,
and the hose is LOCKED, COMPLETE or IDLE. A RANGE or REFERRED session touches no machine record; a TAG or MANUAL one writes
its machine's figures, link and last fill (R2, R3, R4), and a RETIRING record left with no link becomes FREE: fields and
index entries gone, its account's count one less (R19). Day used and day overrun take the sum without a bound: the model's
choice beyond 2^48 − 1 (notes/assumptions/40.md). -/
def Obligations.SessionCloseFollowsR128R130 : Prop :=
  ∀ (id : HoseId) (cause : Option StopCause) (s u : State) (h : Hose) (x : Session) (a : AccountRecord) (k : Compartment)
    (stop : StopCause) (charge left : Nat) (next : HoseState),
    s.hoses.get id = h → h.session = some x → cause.or x.stopCause = some stop →
    (x.machine = none ∧ u = s)
      ∨ (∃ slot tank m m', x.machine = some (slot, tank) ∧ tableGet s.machines slot = some m
        ∧ m' = { m with
            used := if tank = .fuel then m.used + x.net else m.used
            overrun := if tank = .fuel then m.overrun + x.overrun else m.overrun
            held := if tank = .fuel then 0 else m.held
            fuelLink := if tank = .fuel then none else m.fuelLink
            fluidLink := if tank = .fluid then none else m.fluidLink
            fillCount := min (m.fillCount + 1) 65535
            lastFill := some
              { time := s.timebase.count, hose := id, grade := x.grade, session := x.number, net := x.net,
                cause := stop } }
        ∧ ((u = { s with machines := tableSet s.machines slot (machineStamp m') }
            ∧ (m.state ≠ .retiring ∨ m'.fuelLink.isSome = true ∨ m'.fluidLink.isSome = true))
          ∨ (m.state = .retiring ∧ m'.fuelLink = none ∧ m'.fluidLink = none
            ∧ (∀ t ∈ m.fuel.toList ++ m.fluid.toList, (tableGet s.tagIndex t.tag).map TagTarget.slot = some slot)
            ∧ (∀ t ∈ m.fuel.toList, ∀ v ∈ m.fluid.toList, t.tag ≠ v.tag)
            ∧ u = changeAccount m.account (fun b => { b with references := minus b.references 1 })
              { s with
                machines := tableErase s.machines slot
                tagIndex := (m.fuel.toList ++ m.fluid.toList).foldl (fun t v => tableErase t v.tag) s.tagIndex }))) →
    tableGet u.accounts x.account = some a → s.compartments.get x.compartment = k →
    x.moneyHold ≤ a.held → 1 ≤ a.openSessions → left = x.hold * 1000000 - x.net → left ≤ k.committed →
    charge = (2 * (x.net * x.price) + 1000000) / 2000000 →
    next = (if hoseStopValid id s || h.stopFaultFound then .locked
      else if h.setup.collectionRequired then .complete else .idle) →
    closeSession id cause s = raise (.sessionEnd id)
      { (compareRestock x.compartment
          { u with
            accounts := tableSet u.accounts x.account (accountStamp
              { a with
                balance := min (a.balance + charge) (2 ^ 63 - 1)
                held := a.held - x.moneyHold
                openSessions := a.openSessions - 1
                current :=
                  { net := a.current.net.set x.grade (min (a.current.net.get x.grade + x.net) (2 ^ 63 - 1))
                    charges := min (a.current.charges + charge) (2 ^ 63 - 1)
                    fills := min (a.current.fills + 1) 65535 } })
            compartments := s.compartments.set x.compartment { k with committed := k.committed - left } }) with
        hoses := s.hoses.set id
          { h with
            session := some
              { x with
                stopCause := some stop, ended := some s.timebase.count, charge := some charge
                due := h.setup.collectionRequired }
            outputs := { h.outputs with pump := false, manifold := none, mainValve := false, staged := 0 }
            state := next
            readyTimer := none, resumeTimer := none, settleTimer := none, stopFaultFound := false
            windowAfterClosing := false } }

/-- R123: HOSE STOP closes a READY session, moves a delivering or paused one to STOPPING with its settle timer and closing
instant, leaves STOPPING as it is, answers the state reached (in STOPPING too: the model's choice, notes/assumptions/12.md), and
answers STATE in every other state; R131, R132: COLLECT
and SESSION READ. A hose without a session record answers COLLECT with
NO_RECORD; a number that names no hose is MALFORMED. -/
def Obligations.HoseStopCollectReadFollowR123R132 : Prop :=
  (∀ (n : Nat) (id : HoseId) (h : Hose) (s : State), Ready s → hoseOf n = some id → s.hoses.get id = h →
    (h.state = .ready → ∀ t, t = closeSession id (some .hostStop) s →
      exec (.hoseStop n) s = completes (.hoseStop n) .ok (u8 (hoseStateCode (t.hoses.get id).state)) t)
    ∧ ([HoseState.flowing, .slowing, .paused].contains h.state = true →
      exec (.hoseStop n) s = completes (.hoseStop n) .ok (u8 (hoseStateCode .stopping))
        { s with
          hoses := s.hoses.set id
            { h with
              state := .stopping
              outputs := { h.outputs with mainValve := false, staged := 0 }
              session := h.session.map (fun x => { x with stopCause := some .hostStop })
              readyTimer := none, resumeTimer := none
              settleTimer := some (s.timebase.now + h.setup.stopSettle * 1000)
              closingInstant := s.timebase.now, windowAfterClosing := false } })
    ∧ (h.state = .stopping →
      exec (.hoseStop n) s = completes (.hoseStop n) .ok (u8 (hoseStateCode .stopping)) s)
    ∧ ([HoseState.ready, .flowing, .slowing, .paused, .stopping].contains h.state = false →
      exec (.hoseStop n) s = completes (.hoseStop n) .state [] s)
    ∧ (∀ number x y, h.session = some x → y = { x with collected := true, due := x.collected && x.due } →
      exec (.collect n number) s =
        checked (.collect n number)
          [(decide (1 ≤ number ∧ number ≤ 65535), .malformed),
            (!([HoseState.ready, .flowing, .slowing, .paused, .stopping].contains h.state), .state),
            (x.number == number, .state)] s
          .ok (sessionBytes y ++ optional lastRefusalBytes h.lastRefusal)
          { s with
            hoses := s.hoses.set id (if x.collected then h else
              { h with
                session := some y
                state := if h.state = .complete then .idle else h.state
                returnState := if h.returnState = some .complete then some .idle else h.returnState }) })
    ∧ exec (.sessionRead n) s = completes (.sessionRead n) .ok
      (u8 (hoseStateCode h.state) ++ optional sessionBytes h.session ++ optional lastRefusalBytes h.lastRefusal
        ++ (if [HoseState.ready, .flowing, .slowing, .paused, .stopping].contains h.state then
              u8 h.lowFlowRun ++ u8 h.overspeedRun
                ++ timerBytes s.timebase.now (h.readyTimer.or (h.resumeTimer.or h.settleTimer))
            else [])
        ++ (if h.state = .referred then waitingBytes s.timebase.now h else [])) s)
  ∧ (∀ (n : Nat) (s : State), Ready s →
    (hoseOf n = none →
      exec (.hoseStop n) s = completes (.hoseStop n) .malformed [] s
      ∧ exec (.sessionRead n) s = completes (.sessionRead n) .malformed [] s
      ∧ ∀ number, exec (.collect n number) s = completes (.collect n number) .malformed [] s)
    ∧ ∀ id number, hoseOf n = some id → 1 ≤ number → number ≤ 65535 → (s.hoses.get id).session = none →
      exec (.collect n number) s = completes (.collect n number) .noRecord [] s)

/-- R114, R115, R117, R118: the start input. Asserted with the nozzle off hook it starts a READY session, and resumes a
PAUSED one whose tag is present with the pause count one up, into STOPPING, SLOWING or FLOWING by the remaining volume, the
valve opening at the start duty of at least 100; with the nozzle on hook it does nothing; released it pauses a delivering
session with reason OPERATOR.
R160, R161: asserted with the nozzle off hook it starts the run of a PROVE_READY hose, the valve opening as for a session, or
holds it at once when the indicated gross stands at its target, nominal × 10^6 less lead × 100,000 µL; released in
PROVE_FLOWING it holds the run with flow end OPERATOR. In the states not named it does nothing. That the window in progress
at such an entry to STOPPING counts as begun before it is the model's choice (notes/assumptions/45.md). -/
def Obligations.StartInputFollowsR114R118 : Prop :=
  (∀ (id : HoseId) (asserted : Bool) (h : Hose) (x y : Session) (s moved : State), s.supply.power = .running →
    s.hoses.get id = h → h.session = some x → s.field.levels.start.get id ≠ asserted →
    moved = { s with
      field := { s.field with
        levels := { s.field.levels with start := s.field.levels.start.set id asserted }
        changed := { s.field.changed with start := s.field.changed.start.set id true } } } →
    (asserted = true → s.field.levels.offHook.get id = false →
      exec (.startInput id asserted) s = happens moved)
    ∧ (asserted = true → s.field.levels.offHook.get id = true →
      (h.state = .ready ∧ y = x)
        ∨ (h.state = .paused ∧ y = { x with pauseCount := min (x.pauseCount + 1) 255 }
          ∧ (x.kind = .manual ∨ (s.readers.get id).present.map Presence.tag = x.tag)) →
      exec (.startInput id asserted) s =
        if (x.hold * 1000000 : Int) - x.net ≤ h.setup.lead * 100000 then
          happens { moved with
            hoses := s.hoses.set id
              { h with
                state := .stopping
                outputs := { h.outputs with mainValve := false, staged := 0 }
                session := some { y with stopCause := some .holdReached }
                readyTimer := none, resumeTimer := none
                settleTimer := some (s.timebase.now + h.setup.stopSettle * 1000)
                closingInstant := s.timebase.now, windowAfterClosing := false } }
        else
          happens { moved with
            hoses := s.hoses.set id
              { h with
                state := if (x.hold * 1000000 : Int) - x.net ≤ h.setup.slowDown * 1000000 then .slowing else .flowing
                outputs := { h.outputs with mainValve := true, staged := max h.setup.startDuty 100 }
                session := some { y with started := some (x.started.getD s.timebase.count) }
                readyTimer := none, resumeTimer := none, settleTimer := none, lowFlowRun := 0, overspeedRun := 0 } })
    ∧ (asserted = false → h.state = .flowing ∨ h.state = .slowing →
      exec (.startInput id asserted) s = happens
        { moved with
          hoses := s.hoses.set id
            { h with
              state := .paused
              outputs := { h.outputs with mainValve := false, staged := 0 }
              session := some { x with pauseReason := some .operator }
              readyTimer := none, settleTimer := none
              resumeTimer := some (s.timebase.now + h.setup.resumeWindow * 1000) } })
    ∧ (asserted = true → h.state = .paused → x.kind ≠ .manual → (s.readers.get id).present.map Presence.tag ≠ x.tag →
      exec (.startInput id asserted) s = happens moved))
  ∧ (∀ (id : HoseId) (asserted : Bool) (h : Hose) (s moved : State), s.supply.power = .running →
    s.hoses.get id = h → s.field.levels.start.get id ≠ asserted →
    moved = { s with
      field := { s.field with
        levels := { s.field.levels with start := s.field.levels.start.set id asserted }
        changed := { s.field.changed with start := s.field.changed.start.set id true } } } →
    (∀ r, asserted = true → h.state = .proveReady → h.run = some r →
      (s.field.levels.offHook.get id = false → exec (.startInput id asserted) s = happens moved)
      ∧ (s.field.levels.offHook.get id = true →
        exec (.startInput id asserted) s =
          if (r.indicated : Int) < (r.nominal : Int) * 1000000 - h.setup.lead * 100000 then
            happens { moved with
              hoses := s.hoses.set id
                { h with
                  state := .proveFlowing
                  outputs := { h.outputs with mainValve := true, staged := max h.setup.startDuty 100 }
                  run := some { r with flowOpened := some s.timebase.now }
                  readyTimer := none, resumeTimer := none, settleTimer := none } }
          else happens (enterProveHeld id .target false moved)))
    ∧ (asserted = false → h.state = .proveFlowing →
      exec (.startInput id asserted) s = happens (enterProveHeld id .operator false moved))
    ∧ (asserted = true → [HoseState.idle, .referred, .flowing, .slowing, .stopping, .complete, .locked, .outOfService,
        .proveFlowing, .proveHeld].contains h.state → exec (.startInput id asserted) s = happens moved)
    ∧ (asserted = false → [HoseState.idle, .referred, .ready, .paused, .stopping, .complete, .locked, .outOfService,
        .proveReady, .proveHeld].contains h.state → exec (.startInput id asserted) s = happens moved))

/-- R79, R93, R109, R114, R118, R119: the nozzle switch. Lifted, it ends a running rewind INTERRUPTED and starts an
authorisation of the present tag in IDLE, COMPLETE, LOCKED or OUT_OF_SERVICE, and the pair counts as complete anew; hung, it ends a REFERRED request ABANDONED,
closes a READY session ABANDONED, stops a delivering or paused one NOZZLE_HUNG and holds a flowing run with flow end NOZZLE
(R160); in the other states it changes nothing more. That the window in progress then counts as begun before is the model's
choice (notes/assumptions/45.md). -/
def Obligations.NozzleSwitchFollowsR79R119 : Prop :=
  ∀ (id : HoseId) (offHook : Bool) (h : Hose) (s moved : State) (lifted : Option Nat → State),
    s.supply.power = .running → s.hoses.get id = h → s.field.levels.offHook.get id ≠ offHook →
    (∀ tag u, u = endRewind id .interrupted moved →
      lifted tag = { u with hoses := u.hoses.set id { u.hoses.get id with paired := tag } }) →
    moved = { s with
      field := { s.field with
        levels := { s.field.levels with offHook := s.field.levels.offHook.set id offHook }
        changed := { s.field.changed with offHook := s.field.changed.offHook.set id true } } } →
    (offHook = true →
      (∀ p, (s.readers.get id).present = some p → [HoseState.idle, .complete, .locked, .outOfService].contains h.state →
        exec (.nozzleSwitch id offHook) s = happens (authoriseTag id p.tag (lifted (some p.tag))))
      ∧ ((s.readers.get id).present = none ∨ [HoseState.idle, .complete, .locked, .outOfService].contains h.state = false →
        exec (.nozzleSwitch id offHook) s = happens (lifted none)))
    ∧ (offHook = false →
      (h.state = .referred → exec (.nozzleSwitch id offHook) s = happens (endReferred id .abandoned moved))
      ∧ (h.state = .ready → exec (.nozzleSwitch id offHook) s = happens (closeSession id (some .abandoned) moved))
      ∧ ([HoseState.flowing, .slowing, .paused].contains h.state →
        exec (.nozzleSwitch id offHook) s = happens (enterStopping id .nozzleHung false moved))
      ∧ (h.state = .proveFlowing →
        exec (.nozzleSwitch id offHook) s = happens (enterProveHeld id .nozzle false moved))
      ∧ ([HoseState.idle, .stopping, .complete, .locked, .outOfService, .proveReady, .proveHeld].contains h.state →
        exec (.nozzleSwitch id offHook) s = happens moved))

/-- R37, R79, R93, R114, R117 to R119: the tag events. The Hose Controller takes the event its port has raised; tag-present
with the nozzle off hook starts an authorisation; tag-lost abandons a request or a READY session of that tag and pauses a
delivering one with reason TAG_LOST; tag-changed stops a tag-initiated session TAG_CHANGED, and in READY closes it and
authorises the new tag; another tag present at a paused session stops it; tag-changed in REFERRED ends the request ABANDONED
and authorises the new tag. A MANUAL session, a hose in STOPPING and one in a proving state ignore them. A pair that has
stayed complete since it started an authorisation starts no second one; tag-lost breaks it, and tag-changed breaks that of
any tag but the new one.
The model's choices (notes/assumptions/36.md): the row acts on the tags it carries whether or not the event is the oldest
its port has raised; a pair that a nozzle completed, in a state that starts no authorisation, before the event is taken
starts one at the event; after tag-changed ends a request or a READY session, a pair of the new tag that the nozzle had
already authorised starts none. The
window in progress at an entry to STOPPING counts as begun before it (notes/assumptions/45.md). -/
def Obligations.TagEventsFollowR79R119 : Prop :=
  ∀ (id : HoseId) (tag new : Nat) (h : Hose) (s : State) (taken : TagEvent → State) (marked : Nat → State → State),
    s.supply.power = .running → s.hoses.get id = h →
    (∀ v u, u = { s with
        hoses := s.hoses.set id
          { h with
            paired := match v with
              | .present _ => h.paired
              | .lost _ => none
              | .changed _ n => if h.paired = some n then h.paired else none } } →
      taken v = (match (s.readers.get id).events with
      | [] => u
      | e :: rest => if e = v then
          { u with readers := s.readers.set id { s.readers.get id with events := rest } } else u)) →
    (∀ t u, marked t u = { u with hoses := u.hoses.set id { u.hoses.get id with paired := some t } }) →
    ([HoseState.idle, .complete, .locked, .outOfService].contains h.state →
      (∀ p, (s.readers.get id).present = some p → s.field.levels.offHook.get id = true →
        (h.paired ≠ some p.tag →
          exec (.tagPresent id tag) s = happens (authoriseTag id p.tag (marked p.tag (taken (.present tag)))))
        ∧ (h.paired = some p.tag → exec (.tagPresent id tag) s = happens (taken (.present tag)))
        ∧ (h.paired ≠ some p.tag ∨ p.tag ≠ new →
          exec (.tagChanged id tag new) s = happens (authoriseTag id p.tag (marked p.tag (taken (.changed tag new)))))
        ∧ (h.paired = some p.tag → p.tag = new → exec (.tagChanged id tag new) s = happens (taken (.changed tag new))))
      ∧ ((s.readers.get id).present = none ∨ s.field.levels.offHook.get id = false →
        exec (.tagPresent id tag) s = happens (taken (.present tag))
        ∧ exec (.tagChanged id tag new) s = happens (taken (.changed tag new)))
      ∧ exec (.tagLost id tag) s = happens (taken (.lost tag)))
    ∧ (h.state = .referred →
      exec (.tagLost id tag) s = happens (endReferred id .abandoned (taken (.lost tag)))
      ∧ exec (.tagPresent id tag) s = happens (taken (.present tag))
      ∧ exec (.tagChanged id tag new) s =
        happens (pairByTag id (endReferred id .abandoned (taken (.changed tag new)))))
    ∧ ([HoseState.proveReady, .proveFlowing, .proveHeld].contains h.state →
      exec (.tagPresent id tag) s = happens (taken (.present tag))
      ∧ exec (.tagLost id tag) s = happens (taken (.lost tag))
      ∧ exec (.tagChanged id tag new) s = happens (taken (.changed tag new)))
    ∧ (∀ x, h.session = some x → [HoseState.ready, .flowing, .slowing, .paused, .stopping].contains h.state →
      (x.kind = .manual ∨ h.state = .stopping →
        exec (.tagPresent id tag) s = happens (taken (.present tag))
        ∧ exec (.tagLost id tag) s = happens (taken (.lost tag))
        ∧ exec (.tagChanged id tag new) s = happens (taken (.changed tag new)))
      ∧ (x.kind ≠ .manual →
        (h.state = .ready → x.tag = some tag →
          exec (.tagLost id tag) s = happens (closeSession id (some .abandoned) (taken (.lost tag))))
        ∧ (h.state = .ready ∨ h.state = .flowing ∨ h.state = .slowing →
          exec (.tagPresent id tag) s = happens (taken (.present tag)))
        ∧ (h.state = .paused → exec (.tagLost id tag) s = happens (taken (.lost tag)))
        ∧ (h.state = .flowing ∨ h.state = .slowing → x.tag = some tag →
          exec (.tagLost id tag) s = happens (pause id .tagLost (taken (.lost tag))))
        ∧ (x.tag ≠ some tag → exec (.tagLost id tag) s = happens (taken (.lost tag)))
        ∧ ([HoseState.flowing, .slowing, .paused].contains h.state →
          exec (.tagChanged id tag new) s =
            happens (enterStopping id .tagChanged false (taken (.changed tag new))))
        ∧ (h.state = .ready → exec (.tagChanged id tag new) s =
          happens (pairByTag id (closeSession id (some .tagChanged) (taken (.changed tag new)))))
        ∧ (h.state = .paused → exec (.tagPresent id tag) s =
          happens (if x.tag = some tag then taken (.present tag)
            else enterStopping id .tagChanged false (taken (.present tag))))))

/-- R93, R114, R118, R127: the timers of a request and of a session: REFER deadline, ready, resume and settle; the settle
timer closes the session, reporting VALVE and locking the hose when its meter still moves. That an expiry row moves the
instant and the capture counter on to its own is the model's choice (notes/assumptions/19.md). -/
def Obligations.SessionTimersFollowR93R127 : Prop :=
  ∀ (id : HoseId) (h : Hose) (s : State) (t : Nat) (reached : State), s.supply.power = .running → s.hoses.get id = h →
    reached = reachInstant t s →
    (h.state = .referred → h.referTimer = some t →
      exec (.referDeadlineExpiry id) s = happens (endReferred id .referTimeout reached))
    ∧ (h.state = .ready → h.readyTimer = some t →
      exec (.readyTimerExpiry id) s = happens (closeSession id (some .notStarted) reached))
    ∧ (h.state = .paused → h.resumeTimer = some t →
      exec (.resumeTimerExpiry id) s = happens (enterStopping id .pauseExpired false reached))
    ∧ (h.state = .stopping → h.settleTimer = some t →
      ∀ last, last = (s.channels.get id.meter).result.elim 0 WindowResult.n →
      ((s.channels.get id.meter).n = 0 → last = 0 →
        exec (.settleTimerExpiry id) s = happens (closeSession id none reached))
      ∧ (0 < (s.channels.get id.meter).n ∨ 0 < last →
        ∀ u, u = report (.hose id) .valve id.number last reached →
        exec (.settleTimerExpiry id) s = happens (closeSession id none
          { u with hoses := u.hoses.set id { u.hoses.get id with stopFaultFound := true } })))

/-- R93, R103, R124, R162: the emergency stop, asserted, rests the outputs and ends the rewind of every hose and stops its
request, session or run with EMERGENCY, then ends a load; released it changes no hose, and opens the inlet where every
condition of R170 holds. The park brake, released, stops requests and open sessions with VEHICLE_MOVED, resting their
outputs; applied it does nothing. That a run whose result is being written stays is the model's reading
(notes/assumptions/24.md), the order of the hoses, 1 to 3, its choice (48.md), and so is that the window in progress at an
entry to STOPPING counts as begun before it (45.md). -/
def Obligations.EmergencyAndBrakeFollowR103R124 : Prop :=
  ∀ (s : State), s.supply.power = .running →
    (∀ asserted moved, s.field.levels.estop ≠ asserted →
      moved = { s with
        field := { s.field with
          levels := { s.field.levels with estop := asserted }, changed := { s.field.changed with estop := true } } } →
      exec (.emergencyStop asserted) s =
        if asserted then happens (endLoading .emergency (estopHose .h3 (estopHose .h2 (estopHose .h1 moved))))
        else happens (tryOpenInlet moved))
    ∧ (∀ applied moved, s.field.levels.park ≠ applied →
      moved = { s with
        field := { s.field with
          levels := { s.field.levels with park := applied }, changed := { s.field.changed with park := true } } } →
      exec (.parkBrake applied) s =
        if applied then happens moved else happens (brakeHose .h3 (brakeHose .h2 (brakeHose .h1 moved))))
    ∧ (∀ (id : HoseId) (h : Hose) (rested : State), s.hoses.get id = h →
      rested = { s with
        hoses := s.hoses.set id
          { h with outputs := { h.outputs with pump := false, manifold := none, mainValve := false, staged := 0 } } } →
      (h.outputs.reel = false →
        (h.state = .referred → estopHose id s = endReferred id .estop rested)
        ∧ (h.state = .ready → estopHose id s = closeSession id (some .emergency) rested)
        ∧ ([HoseState.flowing, .slowing, .paused].contains h.state →
          estopHose id s = enterStopping id .emergency false rested)
        ∧ (h.state = .proveReady ∨ h.state = .proveFlowing → estopHose id s = endRun id .emergency .idle rested)
        ∧ (h.state = .proveHeld →
          ((∀ c r, s.store.write ≠ some { command := c, change := .factor id r }) →
            estopHose id s = endRun id .emergency .idle rested)
          ∧ (∀ c r, s.store.write = some { command := c, change := .factor id r } → estopHose id s = rested))
        ∧ ([HoseState.idle, .complete, .locked, .outOfService, .stopping].contains h.state → estopHose id s = rested))
      ∧ (h.outputs.reel = true → [HoseState.idle, .complete, .locked, .outOfService].contains h.state →
        estopHose id s = raise (.doneHose id)
          { s with
            hoses := s.hoses.set id
              { h with
                outputs :=
                  { h.outputs with pump := false, manifold := none, mainValve := false, staged := 0, reel := false }
                rewindTimer := none, rewindOutcome := .interrupted } })
      ∧ (h.state = .referred → brakeHose id s = endReferred id .vehicleMoving s)
      ∧ (h.state = .ready → brakeHose id s = closeSession id (some .vehicleMoved) rested)
      ∧ ([HoseState.flowing, .slowing, .paused].contains h.state →
        brakeHose id s = enterStopping id .vehicleMoved false rested)
      ∧ (h.state = .stopping → brakeHose id s = rested)
      ∧ ([HoseState.idle, .complete, .locked, .outOfService, .proveReady, .proveFlowing, .proveHeld].contains h.state →
        brakeHose id s = s))

/-- R93, R117, R126: the shared ends the events above lead to: a request ends with the hose IDLE, its timer stopped, its
REFER notice gone and the last refusal written; a pause closes the valve and starts the resume timer; STOPPING closes the
valve, records the instant and starts the settle timer. R79: a tag event pairs with a nozzle off hook and authorises the
present tag in IDLE, COMPLETE, LOCKED and OUT_OF_SERVICE alone, unless that pair has stayed complete since it started one.
R160, R161: the hold of a run closes the valve, stops the flowing time, writes the flow end, records the instant and starts
the settle timer; that the window in progress then counts as begun before, even in the same ms, is the model's choice, as at
an entry to STOPPING beside those R126 names (notes/assumptions/45.md). R162: the end of a run. Flowing time stops at
2^32 − 1 ms: the model's choice (notes/assumptions/49.md).
R107, R122, R162, R165: what a STOP fault does to a hose in each state; a run whose result is being written is only marked
(notes/assumptions/24.md, the model's reading). A meter's STOP fault acts on its hose, or sets the inlet lock and ends a
load (R173). -/
def Obligations.RequestPauseStopSpelledOut : Prop :=
  ∀ (id : HoseId) (h : Hose) (s : State), s.hoses.get id = h →
    (∀ reason, endReferred id reason s =
      { s with
        hoses := s.hoses.set id
          { h with
            state := .idle, waiting := none, referTimer := none
            lastRefusal := some { time := s.timebase.count, tag := h.waiting.map Waiting.tag, reason := reason } }
        notices := s.notices.filter (fun n => n != .refer id) })
    ∧ (∀ reason, pause id reason s =
      { s with
        hoses := s.hoses.set id
          { h with
            state := .paused
            outputs := { h.outputs with mainValve := false, staged := 0 }
            session := h.session.map (fun x => { x with pauseReason := some reason })
            readyTimer := none, settleTimer := none
            resumeTimer := some (s.timebase.now + h.setup.resumeWindow * 1000) } })
    ∧ (∀ cause atWindow, enterStopping id cause atWindow s =
      { s with
        hoses := s.hoses.set id
          { h with
            state := .stopping
            outputs := { h.outputs with mainValve := false, staged := 0 }
            session := h.session.map (fun x => { x with stopCause := some cause })
            readyTimer := none, resumeTimer := none
            settleTimer := some (s.timebase.now + h.setup.stopSettle * 1000)
            closingInstant := s.timebase.now, windowAfterClosing := atWindow } })
    ∧ ((s.field.levels.offHook.get id = false ∨ (s.readers.get id).present = none
          ∨ h.paired = (s.readers.get id).present.map Presence.tag
          ∨ [HoseState.idle, .complete, .locked, .outOfService].contains h.state = false →
        pairByTag id s = s)
      ∧ ∀ p, s.field.levels.offHook.get id = true → (s.readers.get id).present = some p → h.paired ≠ some p.tag →
        [HoseState.idle, .complete, .locked, .outOfService].contains h.state →
        pairByTag id s = authoriseTag id p.tag { s with hoses := s.hoses.set id { h with paired := some p.tag } })
    ∧ (∀ (timed : Run → Run),
      (∀ r, timed r = { r with
        flowingTime := r.flowOpened.elim r.flowingTime (fun t => min (s.timebase.now - t) (2 ^ 32 - 1))
        flowOpened := none }) →
      (∀ flowEnd atWindow, enterProveHeld id flowEnd atWindow s =
        { s with
          hoses := s.hoses.set id
            { h with
              state := .proveHeld
              outputs := { h.outputs with mainValve := false, staged := 0 }
              run := h.run.map (fun r => { timed r with flowEnd := some flowEnd })
              readyTimer := none, resumeTimer := none
              settleTimer := some (s.timebase.now + h.setup.stopSettle * 1000)
              closingInstant := s.timebase.now, windowAfterClosing := atWindow } })
      ∧ (∀ outcome next, endRun id outcome next s = raise (.doneHose id)
        { s with
          hoses := s.hoses.set id
            { h with
              run := h.run.map (fun r => { timed r with outcome := outcome })
              outputs := { h.outputs with pump := false, manifold := none, mainValve := false, staged := 0 }
              state := next
              readyTimer := none, resumeTimer := none, settleTimer := none, stopFaultFound := false
              windowAfterClosing := false } }))
    ∧ (∀ cause marked, marked = { s with hoses := s.hoses.set id { h with stopFaultFound := true } } →
      (h.state = .ready → stopFault id cause s = closeSession id (some .fault) marked)
      ∧ ([HoseState.flowing, .slowing, .paused].contains h.state →
        stopFault id cause s = enterStopping id cause false marked)
      ∧ (h.state = .stopping → stopFault id cause s = marked)
      ∧ (h.state = .idle ∨ h.state = .complete →
        stopFault id cause s = { s with hoses := s.hoses.set id { h with state := .locked } })
      ∧ (h.state = .locked → stopFault id cause s = s)
      ∧ (h.state = .outOfService →
        stopFault id cause s = { s with hoses := s.hoses.set id { h with returnState := some .locked } })
      ∧ (h.state = .referred → stopFault id cause s =
        { s with
          hoses := s.hoses.set id
            { h with
              state := .locked, waiting := none, referTimer := none
              lastRefusal := some
                { time := s.timebase.count, tag := h.waiting.map Waiting.tag, reason := .hoseUnavailable } }
          notices := s.notices.filter (fun n => n != .refer id) })
      ∧ (h.state = .proveReady ∨ h.state = .proveFlowing → stopFault id cause s = endRun id .fault .locked s)
      ∧ (h.state = .proveHeld →
        ((∀ c r, s.store.write ≠ some { command := c, change := .factor id r }) →
          stopFault id cause s = endRun id .fault .locked s)
        ∧ (∀ c r, s.store.write = some { command := c, change := .factor id r } → stopFault id cause s = marked)))
    ∧ meterStop id.meter s = stopFault id .fault s
    ∧ meterStop .four s = endLoading .fault { s with loads := { s.loads with lock := true } }

/-! ### Metering (Chapter 8) -/

/-- R136, R137, R138: the pulser rows. One pin moves, with its change flag; a completed forward pulse pays a debt first and
otherwise raises n with its capture, a full count reporting PULSER once in the window; a reverse pulse raises the debt; an
illegal transition moves both pins and raises the illegal count, PULSER at the third; a quarter step short of +4 and −4
only moves the accumulator.
The model's choices (notes/assumptions/27.md): FORWARD_PULSE and REVERSE_PULSE leave the accumulator at 0 whatever it was,
FORWARD_PULSE sets the capture counter to the reading it carries, and the quarter step that completes a pulse counts it with
the counter as it stands. -/
def Obligations.PulserRowsFollowR136R138 : Prop :=
  ∀ (m : MeterId) (c : Channel) (s : State), s.supply.power = .running → s.channels.get m = c →
    (∀ (forward : Bool) (a b : Bool) (moved : Channel → State),
      (a, b) = (if (c.pinA = c.pinB) = (forward = true) then (!c.pinA, c.pinB) else (c.pinA, !c.pinB)) →
      (∀ d, moved d = { s with
        channels := s.channels.set m { d with pinA := a, pinB := b }
        field := { s.field with
          pulserAChanged := if a ≠ c.pinA then s.field.pulserAChanged.set m true else s.field.pulserAChanged
          pulserBChanged := if b ≠ c.pinB then s.field.pulserBChanged.set m true else s.field.pulserBChanged } }) →
      (forward = true → ∀ capture cap, cap = capture % 2 ^ 32 →
        (0 < c.debt → exec (.forwardPulse m capture) s =
          happens { moved { c with step := 0, debt := c.debt - 1 } with
            timebase := { s.timebase with capture := cap } })
        ∧ (c.debt = 0 → c.n < 65535 → exec (.forwardPulse m capture) s =
          happens { moved { c with step := 0, n := c.n + 1, first := some (c.first.getD cap), last := some cap } with
            timebase := { s.timebase with capture := cap } })
        ∧ (c.debt = 0 → 65535 ≤ c.n → c.fullReported = true → exec (.forwardPulse m capture) s =
          happens { moved { c with step := 0 } with timebase := { s.timebase with capture := cap } })
        ∧ (c.debt = 0 → 65535 ≤ c.n → c.fullReported = false → exec (.forwardPulse m capture) s =
          happens (meterStop m (report (.meter m) .pulser m.number 1
            { moved { c with step := 0, fullReported := true } with
              timebase := { s.timebase with capture := cap } }))))
      ∧ (forward = false → exec (.reversePulse m) s =
        happens (moved { c with step := 0, debt := min (c.debt + 1) 65535 }))
      ∧ (-4 < (if forward then c.step + 1 else c.step - 1) → (if forward then c.step + 1 else c.step - 1) < 4 →
        exec (.pulserQuarterStep m forward) s =
          happens (moved { c with step := if forward then c.step + 1 else c.step - 1 }))
      ∧ (forward = true → c.step = 3 → c.debt = 0 → c.n < 65535 → exec (.pulserQuarterStep m forward) s =
        happens (moved
          { c with
            step := 0, n := c.n + 1, first := some (c.first.getD s.timebase.capture)
            last := some s.timebase.capture })))
    ∧ (∀ both, both = { s with
        channels := s.channels.set m
          { c with pinA := !c.pinA, pinB := !c.pinB, illegal := min (c.illegal + 1) 255 }
        field := { s.field with
          pulserAChanged := s.field.pulserAChanged.set m true
          pulserBChanged := s.field.pulserBChanged.set m true } } →
      exec (.illegalTransition m) s =
        if c.illegal = 2 then happens (meterStop m (report (.meter m) .pulser m.number 2 both)) else happens both)

/-- R140 to R144: the computation of a window: flow from the captures or from the window's length, gross by the
linearisation factor with the residue carried, temperature clamped or the fallback, net by the correction factor with the
residue carried; and the factor itself, constant outside the points, a point's own at its flow, and between neighbours the
line rounded toward zero. -/
def Obligations.WindowArithmeticFollowsR140R144 : Prop :=
  (∀ (m : MeterId) (o : Owner) (reading : Int) (s : State) (c : Channel) (p : MeterRecord) (q gross net : Nat)
      (temperature : Int),
    s.channels.get m = c → s.store.meters.get m = p →
    (2 ≤ c.n → ∀ first last, c.first = some first → c.last = some last → (last + 2 ^ 32 - first) % 2 ^ 32 ≠ 0 →
      q = min ((c.n - 1) * p.pulseVolume * 60 / ((last + 2 ^ 32 - first) % 2 ^ 32)) 65535) →
    (2 ≤ c.n → ∃ first last, c.first = some first ∧ c.last = some last ∧ (last + 2 ^ 32 - first) % 2 ^ 32 ≠ 0) →
    (c.n ≤ 1 → q = min (c.n * p.pulseVolume * 60 / (s.timebase.window * 1000)) 65535) →
    gross = (c.n * p.pulseVolume * linearFactor q p + c.grossResidue) / 65536 →
    temperature = (if -500 ≤ reading ∧ reading ≤ 1000 then max (-400) (min reading 850)
      else fallbackOf (windowGrade o s) s) →
    net = (gross * vcf (alphaOf (windowGrade o s) s) temperature + c.netResidue) / 1000000 →
    computeWindow m o reading s =
      ({ meter := m, start := s.timebase.windowStart, length := s.timebase.window, n := c.n, q := q,
         lf := linearFactor q p, gross := gross, temperature := temperature,
         fallback := !decide (-500 ≤ reading ∧ reading ≤ 1000),
         vcf := vcf (alphaOf (windowGrade o s) s) temperature, net := net, destination := o.destination },
        (c.n * p.pulseVolume * linearFactor q p + c.grossResidue) % 65536,
        (gross * vcf (alphaOf (windowGrade o s) s) temperature + c.netResidue) % 1000000))
  ∧ (∀ (q : Nat) (r : MeterRecord), linPointsOk (r.firstPoint :: r.morePoints) = true →
    (q ≤ r.firstPoint.flow → linearFactor q r = r.firstPoint.factor)
    ∧ (∀ p ∈ (r.firstPoint :: r.morePoints).getLast?, p.flow ≤ q → linearFactor q r = p.factor)
    ∧ (∀ p ∈ r.firstPoint :: r.morePoints, p.flow = q → linearFactor q r = p.factor)
    ∧ (∀ front lo hi back, r.firstPoint :: r.morePoints = front ++ lo :: hi :: back → lo.flow < q → q < hi.flow →
      (linearFactor q r : Int) =
        lo.factor + Int.tdiv (((hi.factor : Int) - lo.factor) * ((q : Int) - lo.flow)) ((hi.flow : Int) - lo.flow)))

/-- R139, R145 to R148, R179: the window expiry takes the four channels in order, then starts the next window with the
pending length; a channel's window adds ΔG to its totaliser modulo 10^14 with the wrap counted, clears the count and the
captures, and delivers: to the session of a paused hose gross, net and overrun with its compartment's book, dispensed total
and commitment; to an IDLE hose's last source compartment and the unattributed volume.
R145 to R147: the owner of a window in every state; the parts of a session, a run, a load and nobody, with their saturations
and flags. R138, R143: REVERSE and TEMP_PROBE, each at its first window. R106, R107: unattributed volume debits the last
source, if there is one, and beyond the creep limit sets the leak latch, reports LEAK and acts as a STOP fault.
The order, temperatures first, then channels 1 to 4, then the inlet, and a channel's owner taken before its reverse test, is
the model's choice (notes/assumptions/20.md), as is no LEAK at a window without net volume (notes/assumptions/21.md); that a
window after HIGH_LEVEL is nobody's follows R150 and R173 against a cell of R177 (notes/assumptions/46.md). That the row
moves the instant and the capture counter on to the window's end, where the next window starts, is its choice too (19.md). -/
def Obligations.WindowDistributionFollowsR139R148 : Prop :=
  (∀ (s : State),
    (s.supply.power = .running → ∀ (t : ByFour Int) (u v : State),
      u = takeLineTemps t (reachInstant (s.timebase.windowStart + s.timebase.window) s) →
      v = channelWindow .four t.four (channelWindow .three t.three (channelWindow .two t.two
        (channelWindow .one t.one u))) →
      exec (.windowExpiry t) s = happens (tryOpenInlet
        { v with
          timebase := { v.timebase with window := v.timebase.pendingWindow, windowStart := v.timebase.now } }))
    ∧ ∀ (id : HoseId) (h : Hose) (reading : Int) (r : WindowResult) (gr nr : Nat) (c : Channel) (k : Compartment)
        (comp : CompId) (closed : Channel),
      s.hoses.get id = h → s.channels.get id.meter = c → s.compartments.get comp = k →
      c.debt * (s.store.meters.get id.meter).pulseVolume ≤ 2000000 → -500 ≤ reading → reading ≤ 1000 →
      computeWindow id.meter (ownerOf id.meter s) reading
        { s with channels := s.channels.set id.meter { c with reverseMark := false } } = (r, gr, nr) →
      closed = { c with
        n := 0, first := none, last := none, reverseMark := false, grossResidue := gr, netResidue := nr
        lastFlow := r.q, probeValid := true, totaliser := (c.totaliser + r.gross) % 10 ^ 14
        wraps := if c.totaliser + r.gross < 10 ^ 14 then c.wraps else min (c.wraps + 1) 65535
        result := some r, fullReported := false } →
      (∀ x, h.state = .paused → h.session = some x → x.compartment = comp → x.gross + r.gross < 2 ^ 40 →
        x.net + r.net < 2 ^ 40 → min r.net (x.hold * 1000000 - x.net) ≤ k.committed →
        channelWindow id.meter reading s = compareRestock comp
          { s with
            channels := s.channels.set id.meter closed
            hoses := s.hoses.set id
              { h with
                session := some
                  { x with
                    gross := x.gross + r.gross, net := x.net + r.net
                    overrun := x.net + r.net - x.hold * 1000000 } }
            compartments := s.compartments.set comp
              { k with
                book := k.book - r.net, dispensed := k.dispensed + r.net
                committed := k.committed - min r.net (x.hold * 1000000 - x.net) } })
      ∧ (h.state = .idle → h.lastSource = some comp → h.leakLatch = true → c.unattributed + r.net < 2 ^ 48 →
        channelWindow id.meter reading s = compareRestock comp
          { s with
            channels := s.channels.set id.meter { closed with unattributed := c.unattributed + r.net }
            compartments := s.compartments.set comp
              { k with book := k.book - r.net, dispensed := k.dispensed + r.net } }))
  ∧ (∀ (m : MeterId) (reading : Int) (s : State) (c : Channel), s.channels.get m = c →
      (∀ o tested r gr nr probed, o = ownerOf m s → tested = reverseTest m s →
        computeWindow m o reading tested = (r, gr, nr) → probed = probeTest m reading tested →
        ∀ taken, taken = distribute m o r
          { probed with channels := probed.channels.set m (closeWindow r gr nr (probed.channels.get m)) } →
        channelWindow m reading s = match m with
          | .one => handToHose .h1 r taken
          | .two => handToHose .h2 r taken
          | .three => handToHose .h3 r taken
          | .four => handToLoad r taken)
      ∧ (∀ above, above = decide (2000000 < c.debt * (s.store.meters.get m).pulseVolume) →
        (above = false → reverseTest m s = { s with channels := s.channels.set m { c with reverseMark := false } })
        ∧ (above = true → c.reverseMark = true → reverseTest m s = s)
        ∧ (above = true → c.reverseMark = false → reverseTest m s = meterStop m (report (.meter m) .reverse m.number c.debt
          { s with channels := s.channels.set m { c with reverseMark := true } })))
      ∧ probeTest m reading s =
        (if (reading < -500 ∨ 1000 < reading) ∧ c.probeValid = true then
          report (.meter m) .tempProbe m.number reading s
        else s)
      ∧ (∀ r gr nr, closeWindow r gr nr c =
        { c with
          n := 0, first := none, last := none, grossResidue := gr, netResidue := nr, lastFlow := r.q
          probeValid := !r.fallback, totaliser := (c.totaliser + r.gross) % 10 ^ 14
          wraps := if c.totaliser + r.gross < 10 ^ 14 then c.wraps else min (c.wraps + 1) 65535
          result := some r, fullReported := false }))
  ∧ (∀ (id : HoseId) (h : Hose) (r : WindowResult) (s : State), s.hoses.get id = h →
      ([HoseState.flowing, .slowing, .paused, .stopping].contains h.state → ownerOf id.meter s = .session id)
      ∧ ([HoseState.proveReady, .proveFlowing, .proveHeld].contains h.state → ownerOf id.meter s = .run id)
      ∧ ([HoseState.idle, .referred, .ready, .complete, .locked, .outOfService].contains h.state →
        ownerOf id.meter s = .hoseNobody id)
      ∧ (∀ x k net, h.session = some x → s.compartments.get x.compartment = k → net = min (x.net + r.net) (2 ^ 40 - 1) →
        min r.net (x.hold * 1000000 - x.net) ≤ k.committed →
        distribute id.meter (.session id) r s = compareRestock x.compartment
          { s with
            hoses := s.hoses.set id
              { h with
                session := some
                  { x with
                    gross := min (x.gross + r.gross) (2 ^ 40 - 1), net := net, overrun := net - x.hold * 1000000
                    saturated := x.saturated || decide (2 ^ 40 ≤ x.gross + r.gross) || decide (2 ^ 40 ≤ x.net + r.net)
                    uncompensated := x.uncompensated || r.fallback } }
            compartments := s.compartments.set x.compartment
              { k with
                book := k.book - r.net, dispensed := k.dispensed + r.net
                committed := k.committed - min r.net (x.hold * 1000000 - x.net) } })
      ∧ distribute id.meter (.run id) r s =
        { s with
          hoses := s.hoses.set id
            { h with run := h.run.map (fun x => { x with indicated := min (x.indicated + r.gross) (2 ^ 40 - 1) }) } }
      ∧ (∀ u total added, total = min ((s.channels.get id.meter).unattributed + r.net) (2 ^ 48 - 1) →
        added = { s with
          channels := s.channels.set id.meter { s.channels.get id.meter with unattributed := total } } →
        (h.lastSource = none ∧ u = added)
          ∨ (∃ comp k, h.lastSource = some comp ∧ s.compartments.get comp = k
            ∧ u = compareRestock comp { added with
              compartments := s.compartments.set comp
                { k with book := k.book - r.net, dispensed := k.dispensed + r.net } }) →
        distribute id.meter (.hoseNobody id) r s =
          if 0 < r.net ∧ h.leakLatch = false ∧ h.setup.creepLimit * 100000 < total then
            stopFault id .fault (report (.hose id) .leak id.number ((total / 1000 : Nat) : Int)
              { u with hoses := s.hoses.set id { h with leakLatch := true } })
          else u))
  ∧ (∀ (r : WindowResult) (s : State),
      ownerOf .four s = ((loadingOrder s).elim .inletNobody (fun p => .load p.1))
      ∧ distribute .four .inletNobody r s =
        { s with
          channels := s.channels.set .four
            { s.channels.four with unattributed := min (s.channels.four.unattributed + r.net) (2 ^ 48 - 1) } }
      ∧ ∀ slot o k, tableGet s.loads.orders slot = some o → s.compartments.get o.compartment = k →
        distribute .four (.load slot) r s = compareRestock o.compartment
          { s with
            loads := { s.loads with
              orders := tableSet s.loads.orders slot
                { o with gross := min (o.gross + r.gross) (2 ^ 40 - 1), net := min (o.net + r.net) (2 ^ 40 - 1) } }
            compartments := s.compartments.set o.compartment
              { k with book := k.book + r.net, loaded := k.loaded + r.net } })

/-- R105, R116, R120, R121, R126: what the hose does with a window's result: HOLD_REACHED at the lead volume alone; otherwise
NO_FLOW and OVERSPEED at their runs, each with its report, OVERSPEED remembered as a STOP fault (R122); otherwise SLOWING or
FLOWING with one regulation step within 100 to 1000. STOPPING ends at a window without pulses that began at or after the
closing instant, and only there.
R160, R161: in PROVE_FLOWING the run is held at its target, and otherwise takes a regulation step at the run's set point; in
PROVE_HELD a window without pulses that began at or after the closing instant settles it. In the other states a result
changes nothing at the hose.
Where both runs reach their limit on one window, NO_FLOW is reported first and is the stop cause: the model's choice
(notes/assumptions/20.md). -/
def Obligations.WindowHandOverFollowsR105R126 : Prop :=
  (∀ (id : HoseId) (h ran : Hose) (x : Session) (r : WindowResult) (s : State), s.hoses.get id = h → h.session = some x →
    ran = { h with
      lowFlowRun := if r.n < h.setup.noFlowThreshold then h.lowFlowRun + 1 else 0
      overspeedRun := if h.setup.maxFlow * 125 < r.q * 100 then h.overspeedRun + 1 else 0 } →
    (h.state = .flowing ∨ h.state = .slowing →
      ((x.hold * 1000000 : Int) - x.net ≤ h.setup.lead * 100000 →
        handToHose id r s = enterStopping id .holdReached true { s with hoses := s.hoses.set id ran })
      ∧ (h.setup.lead * 100000 < (x.hold * 1000000 : Int) - x.net →
        ∀ noFlow fast, noFlow = report (.hose id) .noFlow id.number ran.lowFlowRun { s with hoses := s.hoses.set id ran } →
        fast = (fun u : State => { report (.hose id) .overspeed id.number r.q u with
          hoses := u.hoses.set id { ran with stopFaultFound := true } }) →
        (h.setup.noFlowWindows ≤ ran.lowFlowRun → ran.overspeedRun < 2 →
          handToHose id r s = enterStopping id .noFlow true noFlow)
        ∧ (h.setup.noFlowWindows ≤ ran.lowFlowRun → 2 ≤ ran.overspeedRun →
          handToHose id r s = enterStopping id .noFlow true (fast noFlow))
        ∧ (ran.lowFlowRun < h.setup.noFlowWindows → 2 ≤ ran.overspeedRun →
          handToHose id r s = enterStopping id .overspeed true (fast { s with hoses := s.hoses.set id ran }))
        ∧ (ran.lowFlowRun < h.setup.noFlowWindows → ran.overspeedRun < 2 → ∀ st point,
          st = (if h.state = .slowing ∨ (x.hold * 1000000 : Int) - x.net ≤ h.setup.slowDown * 1000000
            then .slowing else .flowing) →
          point = (if st = .slowing then min h.setup.slowFlow x.setPoint else x.setPoint) →
          handToHose id r s =
            { s with
              hoses := s.hoses.set id
                { ran with
                  state := st
                  outputs := { h.outputs with
                    staged := max 100 (min (if point * 102 < r.q * 100 then h.outputs.staged - 10
                      else if r.q * 100 < point * 98 then h.outputs.staged + 10 else h.outputs.staged) 1000) } } })))
    ∧ (h.state = .stopping → h.windowAfterClosing = true → r.n = 0 → handToHose id r s = closeSession id none s)
    ∧ (h.state = .stopping → h.windowAfterClosing = false ∨ r.n ≠ 0 →
      handToHose id r s = { s with hoses := s.hoses.set id { h with windowAfterClosing := true } }))
  ∧ (∀ (id : HoseId) (h : Hose) (r : WindowResult) (s : State), s.hoses.get id = h →
    (∀ run, h.run = some run → h.state = .proveFlowing →
      handToHose id r s =
        if (run.nominal : Int) * 1000000 - h.setup.lead * 100000 ≤ run.indicated then enterProveHeld id .target true s
        else
          { s with
            hoses := s.hoses.set id
              { h with
                outputs := { h.outputs with
                  staged := max 100 (min (if run.setPoint * 102 < r.q * 100 then h.outputs.staged - 10
                    else if r.q * 100 < run.setPoint * 98 then h.outputs.staged + 10 else h.outputs.staged) 1000) } } })
    ∧ (∀ run, h.run = some run → h.state = .proveHeld →
      handToHose id r s =
        { s with
          hoses := s.hoses.set id
            (if run.settled = false ∧ h.windowAfterClosing = true ∧ r.n = 0 then
              { h with run := some { run with settled := true }, settleTimer := none }
            else { h with windowAfterClosing := true }) })
    ∧ ([HoseState.idle, .referred, .ready, .paused, .complete, .locked, .outOfService, .proveReady].contains h.state →
      handToHose id r s = s))

/-! ### Metrology and proving (Chapters 8 and 9) -/

/-- R151, R154 to R156, R158: METER READ and METROLOGY READ answer their records and change nothing; METROLOGY WRITE and
GRADE COEFFICIENT WRITE take their checks in order, SEALED among them, and an accepted one starts a write; its completion
replaces the values, raises the change counters, makes the store GOOD, and forms the command's answer. A
number that names no meter is MALFORMED. -/
def Obligations.MetrologyStoreFollowsR151R158 : Prop :=
  (∀ (s : State), s.supply.power = .running →
    (∀ (m : MeterId), s.store.write = none →
      exec (.meterRead m.number) s = completes (.meterRead m.number) .ok
        (channelBytes (s.channels.get m) ++ u64 (s.store.meters.get m).pulseVolume
          ++ firstOf (s.store.meters.get m).calibrated
          ++ (match m with
            | .one => u8 (hoseStateCode s.hoses.h1.state)
            | .two => u8 (hoseStateCode s.hoses.h2.state)
            | .three => u8 (hoseStateCode s.hoses.h3.state)
            | .four => optional (fun p : Nat × LoadOrder => u8 p.1) (loadingOrder s))) s
      ∧ exec (.metrologyRead m.number) s = completes (.metrologyRead m.number) .ok
        (u64 (s.store.meters.get m).pulseVolume
          ++ counted linPointBytes ((s.store.meters.get m).firstPoint :: (s.store.meters.get m).morePoints)
          ++ firstOf (s.store.meters.get m).calibrated ++ u16 (s.store.meters.get m).changes
          ++ u16 s.store.grades.g1.alpha ++ leSigned 2 s.store.grades.g1.fallback
          ++ u16 s.store.grades.g2.alpha ++ leSigned 2 s.store.grades.g2.fallback
          ++ u16 s.store.grades.g3.alpha ++ leSigned 2 s.store.grades.g3.fallback
          ++ (if s.store.restored then [1] else [0]) ++ (if s.field.levels.sealClosed then [1] else [0])) s
      ∧ (∀ pv p rest c, c = Instr.metrologyWrite m.number pv (p :: rest) →
        exec c s = match firstFailing
          [(decide (1000 ≤ pv ∧ pv ≤ 100000) && linPointsOk (p :: rest), Status.malformed),
            (s.field.levels.sealClosed, .sealed),
            ((match m with
              | .one => !metering s.hoses.h1
              | .two => !metering s.hoses.h2
              | .three => !metering s.hoses.h3
              | .four => s.loads.orders.all (fun q => !activeState q.2.state)), .busy)] with
          | some e => completes c e [] s
          | none => happens { s with
              store := { s.store with write := some { command := c, change := .meter m pv p rest } } }))
    ∧ (∀ g alpha fallback c, s.store.write = none → c = Instr.gradeCoefficientWrite g alpha fallback →
      exec c s = match firstFailing
        [(decide (alpha ≤ 2000 ∧ -400 ≤ fallback ∧ fallback ≤ 850), Status.malformed),
          (s.field.levels.sealClosed, .sealed),
          (!metering s.hoses.h1 && !metering s.hoses.h2 && !metering s.hoses.h3
            && s.loads.orders.all (fun q => q.2.state != .loading), .busy)] with
        | some e => completes c e [] s
        | none => happens { s with
            store := { s.store with
              write := some { command := c, change := .grade g { alpha := alpha, fallback := fallback } } } })
    ∧ (∀ c m pv p rest count, s.store.write = some { command := c, change := .meter m pv p rest } →
      count = min ((s.store.meters.get m).changes + 1) 65535 →
      exec .storeWriteComplete s = completes c .ok (u16 count)
        { s with
          store := { s.store with
            write := none, restored := false
            meters := s.store.meters.set m
              { pulseVolume := pv, firstPoint := p, morePoints := rest, calibrated := true, changes := count } } })
    ∧ (∀ c g r, s.store.write = some { command := c, change := .grade g r } →
      exec .storeWriteComplete s = completes c .ok []
        { s with
          store := { s.store with
            write := none, restored := false, grades := s.store.grades.set g r
            meters := s.store.meters.map (fun x => { x with changes := min (x.changes + 1) 65535 }) } }))
  ∧ (∀ (n : Nat) (s : State), Ready s → fourOf n = none →
    exec (.meterRead n) s = completes (.meterRead n) .malformed [] s
    ∧ exec (.metrologyRead n) s = completes (.metrologyRead n) .malformed [] s
    ∧ ∀ pv points, exec (.metrologyWrite n pv points) s = completes (.metrologyWrite n pv points) .malformed [] s)

/-- R159, R161, R162, R164: PROVE START takes its checks in order and starts the run on the first compartment of the
preference list that is IN_SERVICE and of the hose's class; PROVE ABORT, the ready timer, and the settle timer with pulses
still counted end a run with its outcome, the outputs at rest and DONE; without pulses the settle timer settles it; PROVE
READ answers the record. The model's choices: flowing time stops at 2^32 − 1 ms
(notes/assumptions/49.md), and an expiry row moves the instant and the capture counter on to its own (19.md). -/
def Obligations.ProvingRunCommandsFollowR159R164 : Prop :=
  ∀ (id : HoseId) (h : Hose) (s : State) (ended : RunOutcome → HoseState → State → State), Ready s →
    s.hoses.get id = h →
    (∀ outcome next u, ended outcome next u = raise (.doneHose id)
      { u with
        hoses := u.hoses.set id
          { h with
            run := h.run.map (fun r => { r with
              flowingTime := r.flowOpened.elim r.flowingTime (fun t => min (u.timebase.now - t) (2 ^ 32 - 1))
              flowOpened := none, outcome := outcome })
            outputs := { h.outputs with pump := false, manifold := none, mainValve := false, staged := 0 }
            state := next
            readyTimer := none, resumeTimer := none, settleTimer := none, stopFaultFound := false
            windowAfterClosing := false } }) →
    (∀ flow nominal c source, c = Instr.proveStart id.number flow nominal →
      source = h.setup.preference.find? (fun d => (s.compartments.get d).state == .inService
        && (match id, (s.compartments.get d).grade with
          | _, none => false
          | .h3, some g => g == .g3
          | _, some g => g != .g3)) →
      exec c s = match firstFailing
        [(decide (5 ≤ flow ∧ flow ≤ 1000 ∧ 20 ≤ nominal ∧ nominal ≤ 2000), Status.malformed),
          (s.field.levels.sealClosed, .sealed), (h.state == .idle && !h.outputs.reel, .state),
          (!s.field.levels.estop && !stopValid (.hose id) s && !stopValid (.meter id.meter) s, .state),
          ((s.store.meters.get id.meter).calibrated, .state), (source.isSome, .state),
          (source.all (fun d => (s.compartments.get d).gauge.isNone), .busy)], source with
        | some e, _ => completes c e [] s
        | none, none => completes c .state [] s
        | none, some d => completes c .accepted []
          { s with
            channels := s.channels.set id.meter
              { s.channels.get id.meter with
                grossResidue := 0, netResidue := 0, debt := 0, reverseMark := false, illegal := 0 }
            hoses := s.hoses.set id
              { h with
                state := .proveReady
                outputs := { h.outputs with pump := true, manifold := some d, mainValve := false, staged := 0 }
                lastSource := some d
                run := some
                  { compartment := d, grade := (s.compartments.get d).grade.getD .g1,
                    setPoint := min flow h.setup.maxFlow, nominal := nominal, indicated := 0, flowingTime := 0,
                    flowOpened := none, flowEnd := none, settled := false, outcome := .running, result := none }
                readyTimer := some (s.timebase.now + h.setup.readyTimeout * 1000)
                stopFaultFound := false, windowAfterClosing := false } })
    ∧ exec (.proveAbort id.number) s =
      (if [HoseState.proveReady, .proveFlowing, .proveHeld].contains h.state then
        completes (.proveAbort id.number) .ok [] (ended .aborted .idle s)
      else completes (.proveAbort id.number) .state [] s)
    ∧ exec (.proveRead id.number) s = completes (.proveRead id.number) .ok
      (u8 (hoseStateCode h.state)
        ++ optional (fun r : Run => runBytes r
          (r.flowOpened.elim r.flowingTime (fun t => min (s.timebase.now - t) (2 ^ 32 - 1)))) h.run
        ++ (if [HoseState.proveReady, .proveFlowing, .proveHeld].contains h.state then
              timerBytes s.timebase.now (h.readyTimer.or h.settleTimer)
            else [])) s
    ∧ (∀ t reached, reached = reachInstant t s →
      (h.state = .proveReady → h.readyTimer = some t →
        exec (.proveReadyTimeout id) s = happens (ended .timeout .idle reached))
      ∧ (h.state = .proveHeld → h.settleTimer = some t →
        ∀ last, last = (s.channels.get id.meter).result.elim 0 WindowResult.n →
        exec (.proveSettleTimerExpiry id) s =
          if (s.channels.get id.meter).n = 0 ∧ last = 0 then
            happens { reached with
              hoses := s.hoses.set id
                { h with run := h.run.map (fun r => { r with settled := true }), settleTimer := none } }
          else happens (ended .fault .locked (report (.hose id) .valve id.number last reached))))

/-- R163: PROVE RESULT: STATE outside PROVE_HELD, BUSY before the run has settled; average flow truncated, the nearest
point, the lower of two equally near; a run outside 2 % or without volume is REJECTED; a run within it is SEALED with the
switch OPEN, and otherwise starts the write whose completion replaces the point's factor by the one rounded half up within
58,982 to 72,090, raises the change counter by 1 and ends the run UPDATED. The hose is then IDLE, or LOCKED where a STOP fault
was found while the result was being written: the model's reading (notes/assumptions/24.md). Flowing time stops at
2^32 − 1 ms: the model's choice (notes/assumptions/49.md). -/
def Obligations.ProveResultFollowsR163 : Prop :=
  ∀ (id : HoseId) (h : Hose) (r : Run) (observed : Nat) (s : State) (c : Instr) (points : List LinPoint) (flow k : Nat)
    (p : LinPoint) (result : RunResult) (ended : RunOutcome → HoseState → State → State),
    s.supply.power = .running → s.hoses.get id = h → h.run = some r → c = .proveResult id.number observed →
    points = (s.store.meters.get id.meter).firstPoint :: (s.store.meters.get id.meter).morePoints →
    flow = (if r.flowingTime = 0 then 0 else r.indicated * 60 / (r.flowingTime * 1000)) →
    1 ≤ k → points[k - 1]? = some p →
    (∀ (j : Nat) q, points[j]? = some q → |(flow : Int) - p.flow| ≤ |(flow : Int) - q.flow|
      ∧ (|(flow : Int) - p.flow| = |(flow : Int) - q.flow| → k - 1 ≤ j)) →
    result =
      { observed := observed, averageFlow := flow, point := k, oldFactor := p.factor,
        newFactor := if r.indicated = 0 ∨ r.indicated * 2 < |(observed * 1000 : Int) - r.indicated| * 100 then p.factor
          else max 58982 (min ((2 * (p.factor * observed * 1000) + r.indicated) / (2 * r.indicated)) 72090) } →
    (∀ outcome next u, ended outcome next u = raise (.doneHose id)
      { u with
        hoses := u.hoses.set id
          { h with
            run := some { r with
              flowingTime := r.flowOpened.elim r.flowingTime (fun t => min (u.timebase.now - t) (2 ^ 32 - 1))
              flowOpened := none, result := some result, outcome := outcome }
            outputs := { h.outputs with pump := false, manifold := none, mainValve := false, staged := 0 }
            state := next
            readyTimer := none, resumeTimer := none, settleTimer := none, stopFaultFound := false
            windowAfterClosing := false } }) →
    (s.store.write = none → observed ≤ 4000000 →
      (h.state ≠ .proveHeld → exec c s = completes c .state [] s)
      ∧ (h.state = .proveHeld → r.settled = false → exec c s = completes c .busy [] s)
      ∧ (h.state = .proveHeld → r.settled = true →
        (r.indicated = 0 ∨ r.indicated * 2 < |(observed * 1000 : Int) - r.indicated| * 100 →
          exec c s = completes c .ok (u8 2) (ended .rejected .idle s))
        ∧ (r.indicated ≠ 0 → |(observed * 1000 : Int) - r.indicated| * 100 ≤ r.indicated * 2 →
          exec c s = if s.field.levels.sealClosed then
              happens { s with store := { s.store with write := some { command := c, change := .factor id result } } }
            else completes c .sealed [] s)))
    ∧ (s.store.write = some { command := c, change := .factor id result } →
      ∀ first more, first :: more = points.modify (k - 1) (fun q => { q with factor := result.newFactor }) →
      exec .storeWriteComplete s = completes c .ok (u8 1 ++ u8 k ++ u32 p.factor ++ u32 result.newFactor)
        (ended .updated (if h.stopFaultFound then .locked else .idle)
          { s with
            store := { s.store with
              write := none
              meters := s.store.meters.set id.meter
                { s.store.meters.get id.meter with
                  firstPoint := first, morePoints := more
                  changes := min ((s.store.meters.get id.meter).changes + 1) 65535 } } }))

/-! ### Restocking (Chapter 10) -/

/-- R167, R168, R171, R173, R176: the commands of a load order apart from arming. LOAD CREATE takes the lowest-numbered FREE
slot; LOAD CANCEL ends a PLANNED or ARMED order HOST_ABORT, an ARMED one giving its compartment back and its gauge to the
host; LOAD ABORT closes the inlet of a LOADING order; LOAD RETIRE frees an ended one; LOAD READ and INLET READ answer;
INLET SETUP is refused while an order is active. -/
def Obligations.LoadOrdersFollowR167R176 : Prop :=
  (∀ (s : State), Ready s →
    (∀ (d : CompId) g expected docket slot c, c = Instr.loadCreate d.number g expected docket →
      (lowestFree s.loads.orders 8).getD slot = slot →
      exec c s = checked c
        [(decide (1 ≤ expected ∧ expected ≤ 20000 ∧ docket.length = 16)
            && docket.all (fun b => decide (0x20 ≤ b.toNat ∧ b.toNat ≤ 0x7E)), .malformed),
          ((lowestFree s.loads.orders 8).isSome, .tableFull)] s
        .ok (u8 slot)
        { s with
          loads := { s.loads with
            orders := tableSet s.loads.orders slot
              { state := .planned, compartment := d, grade := g, expected := expected, docket := docket,
                gaugeBefore := none, gross := 0, net := 0, gaugeAfter := none, docketVariance := none,
                gaugeVariance := none, endCause := none, created := s.timebase.count, armed := none,
                flowStart := none, flowEnd := none, completed := none } } })
    ∧ (∀ slot, slot < 8 → tableGet s.loads.orders slot = none →
      exec (.loadCancel slot) s = completes (.loadCancel slot) .noRecord [] s
      ∧ exec (.loadAbort slot) s = completes (.loadAbort slot) .noRecord [] s
      ∧ exec (.loadRead slot) s = completes (.loadRead slot) .noRecord [] s
      ∧ exec (.loadRetire slot) s = completes (.loadRetire slot) .noRecord [] s)
    ∧ (∀ slot o k, slot < 8 → tableGet s.loads.orders slot = some o → s.compartments.get o.compartment = k →
      (o.state = .planned → exec (.loadCancel slot) s = completes (.loadCancel slot) .ok []
        { s with
          loads := { s.loads with
            orders := tableSet s.loads.orders slot
              { o with state := .cancelled, endCause := some .hostAbort, completed := some s.timebase.count } } })
      ∧ (o.state = .armed → exec (.loadCancel slot) s = completes (.loadCancel slot) .ok []
        { s with
          loads := { s.loads with
            orders := tableSet s.loads.orders slot
              { o with state := .cancelled, endCause := some .hostAbort, completed := some s.timebase.count }
            valveOpen := false, armTimer := none, idleTimer := none }
          compartments := s.compartments.set o.compartment
            { k with state := .inService, gauge := k.gauge.map (fun g => { g with origin := .host }) } })
      ∧ (o.state ≠ .planned → o.state ≠ .armed →
        exec (.loadCancel slot) s = completes (.loadCancel slot) .state [] s)
      ∧ (o.state = .loading → exec (.loadAbort slot) s = completes (.loadAbort slot) .ok []
        { s with
          loads := { s.loads with
            orders := tableSet s.loads.orders slot
              { o with state := .settling, endCause := some .hostAbort, flowEnd := some s.timebase.count }
            valveOpen := false, armTimer := none, idleTimer := none
            settleTimer := some (s.timebase.now + s.loads.setup.settle * 1000), watch := some s.timebase.now } })
      ∧ (o.state ≠ .loading → exec (.loadAbort slot) s = completes (.loadAbort slot) .state [] s)
      ∧ exec (.loadRetire slot) s =
        (if o.state = .complete ∨ o.state = .cancelled then
          completes (.loadRetire slot) .ok (orderBytes o)
            { s with loads := { s.loads with orders := tableErase s.loads.orders slot } }
        else completes (.loadRetire slot) .state [] s)
      ∧ exec (.loadRead slot) s = completes (.loadRead slot) .ok
        (orderBytes o ++ (if [LoadState.armed, .loading, .settling].contains o.state then
          optional u32 ((s.loads.armTimer.or (s.loads.idleTimer.or s.loads.settleTimer)).map
            (fun d => min (d - s.timebase.now) (2 ^ 32 - 1)))
            ++ flagByte (k.gauge.any (fun g => g.origin == .load)) else [])) s)
    ∧ (∀ idle arm settle ullage c, c = Instr.inletSetup idle arm settle ullage →
      exec c s = checked c
        [(decide (5 ≤ idle ∧ idle ≤ 300 ∧ 1 ≤ arm ∧ arm ≤ 60 ∧ 30 ≤ settle ∧ settle ≤ 900 ∧ 90 ≤ ullage
            ∧ ullage ≤ 99), .malformed),
          (s.loads.orders.all (fun p => !([LoadState.armed, .loading, .settling].contains p.2.state)), .busy)] s
        .ok []
        { s with loads := { s.loads with setup := { idle := idle, arm := arm, settle := settle, ullage := ullage } } })
    ∧ exec .inletRead s = completes .inletRead .ok
      (u16 s.loads.setup.idle ++ u8 s.loads.setup.arm ++ u16 s.loads.setup.settle ++ u8 s.loads.setup.ullage
        ++ firstOf s.loads.valveOpen ++ firstOf s.field.levels.coupled
        ++ flagByte s.field.levels.high.one ++ flagByte s.field.levels.high.two
        ++ flagByte s.field.levels.high.three ++ flagByte s.field.levels.high.four ++ flagByte s.loads.lock
        ++ optional (fun p : Nat × LoadOrder => u8 p.1) (activeOrder s)) s)
  ∧ (∀ (n : Nat) (g : Grade) (expected : Nat) (docket : List Byte) (s : State), Ready s → fourOf n = none →
    exec (.loadCreate n g expected docket) s = completes (.loadCreate n g expected docket) .malformed [] s)

/-- R169, R170: LOAD ARM takes its checks in order; the order becomes ARMED with the ullage limit fixed and the arm timer
started, the compartment LOADING, a grade of NONE taking the order's; a strapping table starts the before gauge, ending a
host gauge in flight, and without one the inlet opens at once where every condition of R170 holds. -/
def Obligations.LoadArmFollowsR169R170 : Prop :=
  ∀ (slot : Nat) (o armed : LoadOrder) (k kept : Compartment) (s t : State), Ready s → slot < 8 →
    (tableGet s.loads.orders slot = none → exec (.loadArm slot) s = completes (.loadArm slot) .noRecord [] s)
    ∧ (tableGet s.loads.orders slot = some o → s.compartments.get o.compartment = k →
      armed = { o with state := .armed, armed := some s.timebase.count } →
      kept = { k with grade := some (k.grade.getD o.grade), state := .loading } →
      t = { s with
        loads := { s.loads with
          orders := tableSet s.loads.orders slot armed
          ullageLimit := s.loads.setup.ullage * k.capacity * 10000
          beforeEnded := k.strap.isNone
          armTimer := some (s.timebase.now + s.loads.setup.arm * 60000)
          idleTimer := none, settleTimer := none, watch := none }
        compartments := s.compartments.set o.compartment (if k.strap.isNone then kept else
          { kept with
            gauge := some { origin := .load, samples := 0, recent := [] }
            outcome := if k.gauge.any (fun g => g.origin == .host) then .aborted else k.outcome }) } →
      exec (.loadArm slot) s = checked (.loadArm slot)
        [(o.state == .planned, .state),
          (s.loads.orders.all (fun p => !([LoadState.armed, .loading, .settling].contains p.2.state)), .busy),
          (k.state == .inService, .busy), (!drawnFrom o.compartment s, .busy),
          (k.grade == none || k.grade == some o.grade, .state), (s.store.meters.four.calibrated, .state),
          (!s.loads.lock, .state)] s
        .ok []
        (if k.strap.isSome then
          (if k.gauge.any (fun g => g.origin == .host) then raise (.doneComp o.compartment) t else t)
        else if s.field.levels.coupled = true ∧ s.field.levels.estop = false
            ∧ s.field.levels.high.get o.compartment = false
            ∧ k.book < (s.loads.setup.ullage * k.capacity * 10000 : Nat) then
          { t with
            loads := { t.loads with
              orders := tableSet s.loads.orders slot { armed with state := .loading }, valveOpen := true }
            channels := s.channels.set .four
              { s.channels.four with
                grossResidue := 0, netResidue := 0, debt := 0, reverseMark := false, illegal := 0
                unattributed := 0 } }
        else t))

/-- R170, R171, R173, R174: the inlet's switches and timers. A coupling or a high-level switch returning to NORMAL opens the
inlet of an ARMED order where every condition holds; uncoupling and HIGH at its compartment close the inlet of a LOADING
one with their causes, HIGH with its report; the arm timer cancels, the idle timer ends the flow DEPOT_STOPPED, the settle
timer starts the after gauge or, without a strapping table, completes the order with its docket variance. That an expiry
row moves the instant and the capture counter on to its own is the model's choice (notes/assumptions/19.md).
R172, R173, R175: what a window of the inlet meter does: a window with pulses that began 10 s or more after the closing
reports INLET_VALVE once, with its pulses, and sets the inlet lock; for a LOADING order a window with pulses writes flow
start once, stops the arm timer and restarts the idle timer, and a book at the ullage limit ends the flow ULLAGE. -/
def Obligations.InletEventsFollowR170R174 : Prop :=
  (∀ (slot : Nat) (o : LoadOrder) (k : Compartment) (s : State) (opened : State → State)
    (closed : EndCause → State → State) (coupledTo : Bool → State) (highTo : CompId → Bool → State),
    s.supply.power = .running → s.compartments.get o.compartment = k →
    (∀ u, opened u = { u with
      loads := { s.loads with
        orders := tableSet s.loads.orders slot { o with state := .loading }, valveOpen := true }
      channels := s.channels.set .four
        { s.channels.four with
          grossResidue := 0, netResidue := 0, debt := 0, reverseMark := false, illegal := 0, unattributed := 0 } }) →
    (∀ cause u, closed cause u = { u with
      loads := { s.loads with
        orders := tableSet s.loads.orders slot
          { o with state := .settling, endCause := some cause, flowEnd := some s.timebase.count }
        valveOpen := false, armTimer := none, idleTimer := none
        settleTimer := some (u.timebase.now + s.loads.setup.settle * 1000), watch := some u.timebase.now } }) →
    (∀ b, coupledTo b = { s with
      field := { s.field with
        levels := { s.field.levels with coupled := b }, changed := { s.field.changed with coupled := true } } }) →
    (∀ d b, highTo d b = { s with
      field := { s.field with
        levels := { s.field.levels with high := s.field.levels.high.set d b }
        changed := { s.field.changed with high := s.field.changed.high.set d true } } }) →
    (∀ b, s.field.levels.coupled = b → exec (.inletCoupling b) s = .next s)
    ∧ (∀ d b, s.field.levels.high.get d = b → exec (.highLevelSwitch d b) s = .next s)
    ∧ (activeOrder s = none →
      (∀ b, s.field.levels.coupled ≠ b → exec (.inletCoupling b) s = happens (coupledTo b))
      ∧ (∀ d b, s.field.levels.high.get d ≠ b → exec (.highLevelSwitch d b) s = happens (highTo d b)))
    ∧ ((∀ p ∈ s.loads.orders, p.2.state ≠ .loading) →
      (s.field.levels.coupled = true → exec (.inletCoupling false) s = happens (coupledTo false))
      ∧ (∀ d, s.field.levels.high.get d = false → exec (.highLevelSwitch d true) s = happens (highTo d true)))
    ∧ (activeOrder s = some (slot, o) →
      (o.state = .loading ∨ o.state = .settling →
        (s.field.levels.coupled = false → exec (.inletCoupling true) s = happens (coupledTo true))
        ∧ (∀ d, s.field.levels.high.get d = true → exec (.highLevelSwitch d false) s = happens (highTo d false))) ∧
      (o.state = .armed →
        (s.field.levels.coupled = false → exec (.inletCoupling true) s =
          if s.loads.beforeEnded = true ∧ s.field.levels.estop = false
              ∧ s.field.levels.high.get o.compartment = false ∧ k.book < (s.loads.ullageLimit : Int)
              ∧ s.loads.lock = false then happens (opened (coupledTo true))
          else happens (coupledTo true))
        ∧ (s.field.levels.high.get o.compartment = true → exec (.highLevelSwitch o.compartment false) s =
          if s.loads.beforeEnded = true ∧ s.field.levels.coupled = true ∧ s.field.levels.estop = false
              ∧ k.book < (s.loads.ullageLimit : Int) ∧ s.loads.lock = false then
            happens (opened (highTo o.compartment false))
          else happens (highTo o.compartment false))
        ∧ (∀ d, d ≠ o.compartment → s.field.levels.high.get d = true → exec (.highLevelSwitch d false) s =
          if s.loads.beforeEnded = true ∧ s.field.levels.coupled = true ∧ s.field.levels.estop = false
              ∧ s.field.levels.high.get o.compartment = false ∧ k.book < (s.loads.ullageLimit : Int)
              ∧ s.loads.lock = false then happens (opened (highTo d false))
          else happens (highTo d false)))
      ∧ (o.state = .loading →
        (s.field.levels.coupled = true → exec (.inletCoupling false) s = happens (closed .uncoupled (coupledTo false)))
        ∧ (s.field.levels.high.get o.compartment = false → exec (.highLevelSwitch o.compartment true) s =
          happens (report .inlet .highLevel o.compartment.number (o.net / 1000000 : Nat)
            (closed .highLevel (highTo o.compartment true))))
        ∧ (∀ d, d ≠ o.compartment → s.field.levels.high.get d = false →
          exec (.highLevelSwitch d true) s = happens (highTo d true)))
      ∧ (∀ t reached, reached = reachInstant t s →
        (o.state = .armed ∨ o.state = .loading → s.loads.armTimer = some t →
          exec .armTimerExpiry s = happens (raise (.load slot)
            { reached with
              loads := { s.loads with
                orders := tableSet s.loads.orders slot
                  { o with
                    state := .cancelled, endCause := some .armTimeout, completed := some s.timebase.count
                    flowEnd := if o.state = .loading then some s.timebase.count else o.flowEnd }
                valveOpen := false, armTimer := none, idleTimer := none }
              compartments := s.compartments.set o.compartment
                { k with state := .inService, gauge := k.gauge.map (fun g => { g with origin := .host }) } }))
        ∧ (o.state = .loading → s.loads.idleTimer = some t →
          exec .inletIdleTimerExpiry s = happens (closed .depotStopped reached))
        ∧ (o.state = .settling → s.loads.settleTimer = some t →
          (k.strap.isSome → k.gauge = none → exec .loadSettleTimerExpiry s = happens
            { reached with
              loads := { s.loads with settleTimer := none }
              compartments := s.compartments.set o.compartment
                { k with gauge := some { origin := .load, samples := 0, recent := [] } } })
          ∧ (k.strap = none → exec .loadSettleTimerExpiry s = happens (raise (.load slot)
            (compareRestock o.compartment { reached with
              loads := { s.loads with
                orders := tableSet s.loads.orders slot
                  { o with
                    state := .complete, gaugeAfter := none, gaugeVariance := none
                    docketVariance := some ((o.net : Int) - o.expected * 1000000)
                    completed := some s.timebase.count }
                settleTimer := none, watch := none }
              compartments := s.compartments.set o.compartment { k with state := .inService } })))))))
  ∧ (∀ (r : WindowResult) (s watched : State),
    (∀ cause, loadingOrder s = none → endLoading cause s = s)
    ∧ (∀ slot o cause, loadingOrder s = some (slot, o) → endLoading cause s =
      { s with
        loads := { s.loads with
          orders := tableSet s.loads.orders slot
            { o with state := .settling, endCause := some cause, flowEnd := some s.timebase.count }
          valveOpen := false, armTimer := none, idleTimer := none
          settleTimer := some (s.timebase.now + s.loads.setup.settle * 1000), watch := some s.timebase.now } })
    ∧ (watched = (match s.loads.watch, activeOrder s with
        | some t, some (_, o) =>
          if t + 10000 ≤ r.start ∧ 0 < r.n then
            { report .inlet .inletValve o.compartment.number r.n s with
              loads := { s.loads with lock := true, watch := none } }
          else s
        | _, _ => s) →
      (loadingOrder s = none → handToLoad r s = watched)
      ∧ (∀ slot o flowed, loadingOrder s = some (slot, o) →
        flowed = (if r.n = 0 then watched else
          { watched with
            loads := { watched.loads with
              orders := tableSet s.loads.orders slot
                { o with flowStart := some (o.flowStart.getD s.timebase.count) }
              armTimer := none, idleTimer := some (s.timebase.now + s.loads.setup.idle * 1000) } }) →
        handToLoad r s =
          if (s.loads.ullageLimit : Int) ≤ (s.compartments.get o.compartment).book then endLoading .ullage flowed
          else flowed)))

/-! ### Timebase (Chapter 11) -/

/-- R179, R180, R182: WINDOW SET clamps to 50 to 1000 and answers the pending length; CLOCK SET writes the count, and a set
forward of a SET clock over a rollover instant applies one rollover: every record's day used and day overrun 0 with a fresh
check word, the rollover's time kept, DAY raised; ROLLOVER SET and CLOCK READ; each second the count rises by 1 modulo
2^32, with a rollover at the rollover second of a SET clock.
The model's choices: CLOCK SET writes the last second counted too (notes/assumptions/26.md); an expiry moves the instant on
to its own, the capture counter with it by 1,000 µs to the ms (notes/assumptions/19.md). -/
def Obligations.TimebaseFollowsR179R182 : Prop :=
  ∀ (s : State) (rolled : State → State), s.supply.power = .running → s.timebase.rolloverSecond < 86400 →
    (∀ u, rolled u = raise .day
      { u with
        machines := u.machines.map (fun p => (p.1, machineStamp { p.2 with used := 0, overrun := 0 }))
        timebase := { u.timebase with lastRollover := some u.timebase.count } }) →
    (∀ t, reachInstant t s = { s with
      timebase := { s.timebase with
        now := max s.timebase.now t
        capture := (s.timebase.capture + 1000 * (t - s.timebase.now)) % 2 ^ 32 } })
    ∧ (s.store.write = none →
      (∀ n w, w = (if n < 50 then 50 else if 1000 < n then 1000 else n) →
        exec (.windowSet n) s = completes (.windowSet n) .ok (u16 w)
          { s with timebase := { s.timebase with pendingWindow := w } })
      ∧ (∀ n set, n < 2 ^ 32 →
        set = { s with timebase := { s.timebase with count := n, lastCounted := n, clockSet := true } } →
        (s.timebase.clockSet = false → exec (.clockSet n) s = completes (.clockSet n) .ok [] set)
        ∧ (s.timebase.clockSet = true →
          ((∃ t, s.timebase.count < t ∧ t ≤ n ∧ t % 86400 = s.timebase.rolloverSecond) →
            exec (.clockSet n) s = completes (.clockSet n) .ok (u32 s.timebase.count) (rolled set))
          ∧ ((∀ t, s.timebase.count < t → t ≤ n → t % 86400 ≠ s.timebase.rolloverSecond) →
            exec (.clockSet n) s = completes (.clockSet n) .ok (u32 s.timebase.count) set)))
      ∧ (∀ n, exec (.rolloverSet n) s = checked (.rolloverSet n) [(decide (n < 86400), .malformed)] s .ok []
        { s with timebase := { s.timebase with rolloverSecond := n } })
      ∧ exec .clockRead s = completes .clockRead .ok
        (u32 s.timebase.count ++ flagByte s.timebase.clockSet ++ u32 s.timebase.rolloverSecond
          ++ u32 (s.timebase.count % 86400) ++ optional u32 s.timebase.lastRollover
          ++ u8 (resetKindCode s.timebase.lastReset.kind) ++ u8 (resetCauseCode s.timebase.lastReset.cause)
          ++ u32 s.timebase.lastReset.count) s)
    ∧ (∀ n counted, n = (s.timebase.count + 1) % 2 ^ 32 →
      counted = { s with timebase := { s.timebase with count := n, lastCounted := n } } →
      (s.timebase.clockSet = true → n % 86400 = s.timebase.rolloverSecond →
        exec .siteClockSecond s = happens (rolled counted))
      ∧ (s.timebase.clockSet = false ∨ n % 86400 ≠ s.timebase.rolloverSecond →
        exec .siteClockSecond s = happens counted))

/-! ### Faults and notices (Chapter 12) -/

/-- R186, R187: FAULT READ and FAULT CONTROL, the latter refusing an enable set that names a kind the bank does not have;
FAULT CLEAR empties the bank, removes its FAULT notice and answers the record removed; it unlocks the hose, or its return
state, into COMPLETE or IDLE when no STOP fault stays valid in the hose's other bank, a clear of HOSE clearing the leak
latch; INLET and METER 4 clear the inlet lock in the same way; the other banks release nothing. -/
def Obligations.FaultCommandsFollowR186R187 : Prop :=
  (∀ (i : BankId) (s e : State), Ready s →
    e = { s with
      banks := bankSet s.banks i { bankGet s.banks i with overflow := false, record := none }
      notices := s.notices.filter (fun n => n != .fault i) } →
    exec (.faultRead (bankNumber i)) s = completes (.faultRead (bankNumber i)) .ok
      (u8 (bankGet s.banks i).enable.toNat ++ flagByte (bankGet s.banks i).record.isSome
        ++ flagByte (bankGet s.banks i).overflow ++ (bankGet s.banks i).record.elim [] faultBytes) s
    ∧ (∀ n, exec (.faultControl (bankNumber i) n) s =
      checked (.faultControl (bankNumber i) n)
        [(decide (n < 2 ^ (match i with
          | .reader _ => 2
          | .hose _ => 5
          | .meter _ => 3
          | .gauge => 2
          | .inlet => 2
          | .table => 1)), .malformed)] s
        .ok [] { s with banks := bankSet s.banks i { bankGet s.banks i with enable := BitVec.ofNat 8 n } })
    ∧ (∀ released c payload, c = Instr.faultClear (bankNumber i) →
      payload = optional faultBytes (bankGet s.banks i).record →
      (∀ id (other : BankId) h back leak, s.hoses.get id = h →
        (i = .hose id ∧ other = .meter id.meter ∧ leak = false)
          ∨ (i = .meter id.meter ∧ other = .hose id ∧ leak = h.leakLatch) →
        back = (if h.session.any (fun x => x.due) then .complete else .idle) →
        released = { e with
          hoses := s.hoses.set id
            { h with
              leakLatch := leak
              state := if h.state = .locked ∧ stopValid other s = false then back else h.state
              returnState := if h.state = .outOfService ∧ h.returnState = some .locked ∧ stopValid other s = false
                then some back else h.returnState } } →
        exec c s = completes c .ok payload released)
      ∧ (∀ other : BankId, (i = .inlet ∧ other = .meter .four) ∨ (i = .meter .four ∧ other = .inlet) →
        (stopValid other s = true → exec c s = completes c .ok payload e)
        ∧ (stopValid other s = false →
          exec c s = completes c .ok payload (tryOpenInlet { e with loads := { s.loads with lock := false } })))
      ∧ ((∃ id, i = .reader id) ∨ i = .gauge ∨ i = .table → exec c s = completes c .ok payload e)))
  ∧ (∀ (n k : Nat) (s : State), Ready s → bankOf n = none →
    exec (.faultRead n) s = completes (.faultRead n) .malformed [] s
    ∧ exec (.faultControl n k) s = completes (.faultControl n k) .malformed [] s
    ∧ exec (.faultClear n) s = completes (.faultClear n) .malformed [] s)

/-- R184, R185: the table of what a bank does with a report, for a kind of the bank: nothing when the kind is disabled; into
an empty bank the record with the site clock reading and FAULT; over a lower severity the record replaced, overflow and
FAULT; over an equal or higher one overflow alone. Every other bank, and everything but the bank and the notice set, is
unchanged. -/
def Obligations.ReportFollowsR185 : Prop :=
  ∀ (i : BankId) (kind : ErrorKind) (bit index : Nat) (detail : Int) (s : State) (k : Bank) (f : FaultRecord),
    (bankKinds i)[bit]? = some kind → bankGet s.banks i = k → -2147483648 ≤ detail →
    f = { severity := severityOf kind, kind := kind, index := index, detail := min detail (2 ^ 31 - 1),
          time := s.timebase.count } →
    (k.enable.getLsbD bit = false → report i kind index detail s = s)
    ∧ (k.enable.getLsbD bit = true →
      (k.record = none → report i kind index detail s = raise (.fault i)
        { s with banks := bankSet s.banks i { k with record := some f } })
      ∧ (∀ held, k.record = some held → severityCode held.severity < severityCode f.severity →
        report i kind index detail s = raise (.fault i)
          { s with banks := bankSet s.banks i { k with overflow := true, record := some f } })
      ∧ (∀ held, k.record = some held → severityCode f.severity ≤ severityCode held.severity →
        report i kind index detail s = { s with banks := bankSet s.banks i { k with overflow := true } }))

/-- R188, R189, R193: NOTICE NEXT returns and removes the member of the kind of highest priority, within it the one of
lowest source, hoses before compartments within DONE, with the number remaining, and NONE when the set is empty; NOTICE MASK
replaces the mask and drops the members it disables; a masked kind is not raised and a pending member is not added again;
ATTN follows the set. IDENTIFY answers part code 6140, revision 1 and the payload limits 512 and 1,024. -/
def Obligations.NoticeCommandsFollowR188R189 : Prop :=
  ∀ (s : State), Ready s →
    (s.notices = [] → exec .noticeNext s = completes .noticeNext .ok [0, 0, 0] s)
    ∧ (∀ n left, n ∈ s.notices → (∀ slot, Notice.load slot ∈ s.notices → slot < 8) →
      (∀ m ∈ s.notices, m ≠ n → noticeKind n < noticeKind m
        ∨ (noticeKind n = noticeKind m ∧ ((∃ h c, n = .doneHose h ∧ m = .doneComp c)
          ∨ ((∀ h c, n = .doneComp c → m ≠ .doneHose h)
            ∧ ∃ i j, noticeSource n = some i ∧ noticeSource m = some j ∧ i < j)))) →
      left = s.notices.filter (fun m => m != n) →
      exec .noticeNext s = completes .noticeNext .ok
        (u8 (noticeKind n) ++ optional u8 (noticeSource n) ++ u8 left.length) { s with notices := left })
    ∧ (∀ n, n < 256 → exec (.noticeMask n) s = completes (.noticeMask n) .ok (u8 n)
      { s with
        noticeMask := BitVec.ofNat 8 n
        notices := s.notices.filter (fun m => n.testBit (noticeKind m - 1)) })
    ∧ (∀ n, 256 ≤ n → exec (.noticeMask n) s = completes (.noticeMask n) .malformed [] s)
    ∧ (∀ n, (s.noticeMask.getLsbD (noticeKind n - 1) = false → raise n s = s)
      ∧ (n ∈ s.notices → s.notices.Pairwise (fun a b => noticeRank a ≤ noticeRank b ∧ a ≠ b) →
        (∀ slot, Notice.load slot ∈ s.notices → slot < 8) → raise n s = s)
      ∧ (s.noticeMask.getLsbD (noticeKind n - 1) = true → ∃ left, raise n s = { s with notices := left }
        ∧ ∀ m, m ∈ left ↔ m ∈ s.notices ∨ m = n))
    ∧ (attn s = true ↔ ∃ n, n ∈ s.notices)
    ∧ exec .identify s = completes .identify .ok [0xFC, 0x17, 1, 0, 2, 0, 4] s

/-! ### The link (Chapter 12) -/

/-- R190, R191, R192: a transaction opened by another byte changes nothing. The end of a COMMAND transaction in IDLE takes
the frame: CHECK_FAILED where its length or its CRC-16 does not agree, INVALID or MALFORMED where its byte or its payload
names no command, EXECUTING otherwise; in EXECUTING and RESULT it sets the overrun mark. A READ transaction in RESULT shifts
the response out, and consumed whole it returns the port to IDLE with the mark clear; elsewhere it shifts a NOT_READY frame.
LINK RESET returns the port to IDLE, an executing command running on unwanted: its response is discarded, and a frame taken
meanwhile begins at its completion.
The model's choices (notes/assumptions/17.md): LINK RESET discards a frame that waits behind such a command; the other
opening bytes, the sequence of a NOT_READY frame, the zeros shifted out during a COMMAND transaction, and nothing recorded of
bytes clocked after a frame's end. -/
def Obligations.LinkFollowsR190R192 : Prop :=
  ∀ (s : State) (p zeros : Port) (frame : List Byte), s.supply.power = .running → s.port = p →
    zeros = { p with shifted := frame.map (fun _ => 0) } →
    (∀ b : Byte, b ≠ 1 → exec (.commandTransaction b frame) s = .next s)
    ∧ (∀ (b : Byte) count, b ≠ 2 → exec (.readTransaction b count) s = .next s)
    ∧ (p.link ≠ .idle →
      exec (.commandTransaction 1 frame) s = .next { s with port := { zeros with overrun := true } })
    ∧ (p.link = .idle → p.executing = none → s.store.write = none →
      (∀ code seq payload (low high x y : Byte), frame = [code, seq, low, high] ++ payload ++ [x, y] →
        low.toNat + 256 * high.toNat = payload.length → payload.length ≤ 512 →
        (crc16 ([code, seq, low, high] ++ payload)).toNat = x.toNat + 256 * y.toNat →
        (∀ c, todoOf code payload = .run c → exec (.commandTransaction 1 frame) s = .next
          { s with
            port := { zeros with
              link := .executing
              executing := some { code := code, sequence := seq, todo := .run c, wanted := true } } })
        ∧ (∀ st, todoOf code payload = .reply st → exec (.commandTransaction 1 frame) s = .next
          { s with
            port := { zeros with
              link := .result
              response := some { code := code, sequence := seq, answer := ⟨st, []⟩ } } }))
      ∧ ((¬ ∃ code seq payload, ∃ low high x y : Byte, frame = [code, seq, low, high] ++ payload ++ [x, y]
          ∧ low.toNat + 256 * high.toNat = payload.length ∧ payload.length ≤ 512
          ∧ (crc16 ([code, seq, low, high] ++ payload)).toNat = x.toNat + 256 * y.toNat) →
        exec (.commandTransaction 1 frame) s = .next
          { s with
            port := { zeros with
              link := .result
              response := some
                { code := frame.getD 0 0, sequence := frame.getD 1 0, answer := ⟨.checkFailed, []⟩ } } }))
    ∧ (p.link = .idle → p.executing.isSome = true ∨ s.store.write.isSome = true →
      exec (.commandTransaction 1 frame) s = .next
        { s with port := { zeros with link := .executing, waiting := some (takenFrame frame) } })
    ∧ (∀ c a t, p.executing = some t → t.todo = .run c →
      (t.wanted = true → (finish c a s).port = { p with
        answer := some a, executing := none, link := .result
        response := some { code := t.code, sequence := t.sequence, answer := a } })
      ∧ (t.wanted = false → p.waiting = none →
        (finish c a s).port = { p with answer := some a, executing := none })
      ∧ (∀ w d, t.wanted = false → p.waiting = some w → w.todo = .run d →
        (finish c a s).port = { p with
          answer := some a, executing := some w, waiting := none, link := .executing }))
    ∧ (∀ count,
      (∀ r whole, p.link = .result → p.response = some r →
        whole = responseBytes r.code r.sequence r.answer.status p.overrun (!s.notices.isEmpty) r.answer.payload →
        exec (.readTransaction 2 count) s = .next
          { s with
            port := if whole.length ≤ count then
                { p with shifted := whole, link := .idle, response := none, overrun := false }
              else { p with shifted := whole.take count } })
      ∧ (∀ seq, (p.link = .idle ∧ seq = 0)
          ∨ (p.link = .executing ∧ p.waiting = none ∧ ∃ t, p.executing = some t ∧ seq = t.sequence) →
        exec (.readTransaction 2 count) s = .next
          { s with
            port := { p with
              shifted := (responseBytes 0 seq .notReady p.overrun (!s.notices.isEmpty) []).take count } }))
    ∧ exec .linkReset s = .next
      { s with
        port := { p with
          link := .idle, response := none, overrun := false, waiting := none
          executing := p.executing.map (fun t => { t with wanted := false }) } }

/-! ### Resets and supply (Chapter 11) -/

/-- R183, R193: the RESET pin, RESTART, which has no response, and a power-up with the loss latch clear are warm resets. R181: a
power-up with the clock SET then applies one rollover when a rollover instant lies after the last second counted with main
power and at or before the present count; across a wrap of the count, the model's reading (notes/assumptions/26.md).
What it leaves. R25, R60, R134: open sessions close with cause RESET as any close does (the closes one after another, hoses 1
to 3), so machines, accounts and index are theirs: host-set fields kept, links and day held of the closed sessions gone;
ranges, policy, prices kept. R95, R109, R111, R162: every hose at rest; a request ends without a refusal, a run RESET (LOCKED
after a STOP fault while its result was being written: notes/assumptions/24.md), a rewind INTERRUPTED; setup, last source,
leak latch, session number and last refusal kept. R77, R178: gauges aborted, orders ended, inlet closed, its lock kept.
R40, R152, R157, R179, R184, R188, R192: setup alone kept of a reader, pins, unattributed volume and totalisers of a channel;
the store checked, a damaged one restored; window 200, the reset recorded; banks and clock kept; RESTARTED alone pending; the
port idle. The model's choices: a probe sample shown before is kept (notes/assumptions/4.md), tag events not yet taken are
dropped (39.md), switch levels stand (5.md), the instant and the capture counter run on (8.md), a hold-off that runs is
stopped and the hoses are taken 1 to 3 (25.md), and flowing time stops at 2^32 − 1 ms (49.md). -/
def Obligations.WarmResetFollowsR183 : Prop :=
  (∀ (s : State),
    (s.supply.power = .running → exec .resetPin s = .next (warmReset .resetPin s))
    ∧ (Ready s → exec .restart s = .next (warmReset .restart s))
    ∧ (s.supply.lossLatch = false → s.timebase.rolloverSecond < 86400 → ∀ (t : State) (passed : Prop),
      t = warmReset .powerUp s →
      (passed ↔ ∃ n, n % 86400 = s.timebase.rolloverSecond
        ∧ (if s.timebase.lastCounted ≤ s.timebase.count then s.timebase.lastCounted < n ∧ n ≤ s.timebase.count
          else (s.timebase.lastCounted < n ∧ n < 2 ^ 32) ∨ n ≤ s.timebase.count)) →
      (s.timebase.clockSet = true → passed → exec .powerUp s = .next (raise .day
        { t with
          machines := t.machines.map (fun p => (p.1, machineStamp { p.2 with used := 0, overrun := 0 }))
          timebase := { t.timebase with lastRollover := some s.timebase.count } }))
      ∧ (s.timebase.clockSet = false ∨ ¬ passed → exec .powerUp s = .next t)))
  ∧ ∀ (s t u : State) (cause : ResetCause) (close : HoseId → State → State), t = warmReset cause s →
    (∀ id v, close id v = if openState (v.hoses.get id).state then closeSession id (some .reset) v else v) →
    u = close .h3 (close .h2 (close .h1 s)) →
    (t.machines, t.accounts, t.tagIndex) = (u.machines, u.accounts, u.tagIndex)
    ∧ (∀ slot m', tableGet t.machines slot = some m' → ∃ m, tableGet s.machines slot = some m
      ∧ (m'.number, m'.account, m'.manualPermitted, m'.fuel, m'.fluid, m'.allowance)
        = (m.number, m.account, m.manualPermitted, m.fuel, m.fluid, m.allowance)
      ∧ ∀ id x tank, openState (s.hoses.get id).state = true → (s.hoses.get id).session = some x →
        x.machine = some (slot, tank) →
        (tank = .fuel → m'.fuelLink = none ∧ m'.held = 0) ∧ (tank = .fluid → m'.fluidLink = none))
    ∧ (t.banks, t.ranges, t.defaultPolicy, t.prices, t.pending)
      = (s.banks, s.ranges, s.defaultPolicy, s.prices, s.pending)
    ∧ t.store = (if s.store.damaged then
        { meters := s.store.meters.map (fun r =>
            { MeterRecord.shipped with changes := min (r.changes + 1) 65535 })
          grades := ByGrade.all GradeRecord.shipped, restored := true, damaged := false, write := none }
      else { s.store with write := none })
    ∧ t.port = Port.cold ∧ t.notices = [.restarted] ∧ t.noticeMask = BitVec.ofNat 8 255
    ∧ t.supply = { s.supply with power := .running }
    ∧ t.timebase = { s.timebase with
        window := 200, pendingWindow := 200, windowStart := s.timebase.now, holdOff := none
        lastReset := { kind := .warm, cause := cause, count := s.timebase.count } }
    ∧ t.field = { s.field with
        changed := Switches.none, pulserAChanged := ByFour.all false, pulserBChanged := ByFour.all false
        tempChanged := ByHose.all false }
    ∧ (∀ id, t.readers.get id = { Reader.cold s.timebase.now with
        baud := (s.readers.get id).baud, minQuality := (s.readers.get id).minQuality
        grace := (s.readers.get id).grace })
    ∧ (∀ m, t.channels.get m = { Channel.cold with
        pinA := (s.channels.get m).pinA, pinB := (s.channels.get m).pinB
        unattributed := (s.channels.get m).unattributed, totaliser := (s.channels.get m).totaliser
        wraps := (s.channels.get m).wraps })
    ∧ (∀ id h base, s.hoses.get id = h →
      base = { h with
        outputs := Outputs.rest, lowFlowRun := 0, overspeedRun := 0, paired := none
        rewindTimer := if h.outputs.reel then none else h.rewindTimer
        rewindOutcome := if h.outputs.reel then .interrupted else h.rewindOutcome } →
      ([HoseState.idle, .complete, .locked, .outOfService].contains h.state → t.hoses.get id = base)
      ∧ (h.state = .referred →
        t.hoses.get id = { base with state := .idle, waiting := none, referTimer := none })
      ∧ (∀ x, openState h.state = true → h.session = some x → t.hoses.get id =
        { base with
          session := some
            { x with
              stopCause := some .reset, ended := some s.timebase.count
              charge := some ((2 * (x.net * x.price) + 1000000) / 2000000), due := h.setup.collectionRequired }
          state := if hoseStopValid id s || h.stopFaultFound then .locked
            else if h.setup.collectionRequired then .complete else .idle
          readyTimer := none, resumeTimer := none, settleTimer := none, stopFaultFound := false
          windowAfterClosing := false })
      ∧ ([HoseState.proveReady, .proveFlowing, .proveHeld].contains h.state → t.hoses.get id =
        { base with
          run := h.run.map (fun r => { r with
            flowingTime := r.flowOpened.elim r.flowingTime (fun o => min (s.timebase.now - o) (2 ^ 32 - 1))
            flowOpened := none, outcome := .reset })
          state := if h.stopFaultFound then .locked else .idle
          readyTimer := none, resumeTimer := none, settleTimer := none, stopFaultFound := false
          windowAfterClosing := false }))
    ∧ (∀ d, t.compartments.get d = { u.compartments.get d with
        gauge := none
        outcome := if (u.compartments.get d).gauge.isSome then .aborted else (u.compartments.get d).outcome
        state := if (activeOrder s).any (fun p => p.2.compartment == d) then .inService
          else (u.compartments.get d).state })
    ∧ t.loads = { s.loads with
        orders := s.loads.orders.map (fun p => (p.1,
          match p.2.state with
          | .armed =>
            { p.2 with state := .cancelled, endCause := some .reset, completed := some s.timebase.count }
          | .loading =>
            { p.2 with
              state := .complete, endCause := some .reset, flowEnd := some s.timebase.count
              docketVariance := some ((p.2.net : Int) - p.2.expected * 1000000), completed := some s.timebase.count }
          | .settling =>
            { p.2 with
              state := .complete, endCause := some .reset
              docketVariance := some ((p.2.net : Int) - p.2.expected * 1000000), completed := some s.timebase.count }
          | _ => p.2))
        valveOpen := false, beforeEnded := false, armTimer := none, idleTimer := none, settleTimer := none
        watch := none }

/-- R103, R111, R125, R183: power-up with the loss latch set is a cold reset, which keeps of the controller's records only
the Metrology Store, each change counter 1 higher, and clears the latch; the retention supply's loss sets it; the power-fail
warning closes open sessions with cause POWER and starts the 20 ms hold-off, its release stops it; the expiry begins a warm
reset held while the warning stays ASSERTED, which its release completes. The RESET pin and RESTART make a running controller
take a warm reset.
The model's choices: a cold reset keeps the levels and readings at the inputs and the pulser pins, with the model's own
instant and queue (notes/assumptions/5.md, 7.md, 25.md); a controller held or without power takes the warning, the latch and
the power rows alone (15.md, 25.md); the loss of main power turns every output off and withholds DRIVE PERMIT, records and
tables standing (16.md). -/
def Obligations.PowerFollowsR183 : Prop :=
  ∀ (s : State),
    (s.supply.lossLatch = true → s.store.damaged = false → ∃ t, exec .powerUp s = happens t
      ∧ t = { State.reset with
          timebase := { State.reset.timebase with now := s.timebase.now, windowStart := s.timebase.now }
          readers := ByHose.all (Reader.cold s.timebase.now)
          field := { s.field with
            changed := Switches.none, pulserAChanged := ByFour.all false, pulserBChanged := ByFour.all false
            tempChanged := ByHose.all false }
          channels := s.channels.map (fun c => { Channel.cold with pinA := c.pinA, pinB := c.pinB })
          store := { s.store with
            write := none, meters := s.store.meters.map (fun r => { r with changes := min (r.changes + 1) 65535 }) }
          pending := s.pending })
    ∧ exec .retentionSupplyLoss s = .next { s with supply := { s.supply with lossLatch := true } }
    ∧ (s.supply.power = .running → exec .resetPin s = .next (warmReset .resetPin s))
    ∧ (Ready s → exec .restart s = .next (warmReset .restart s))
    ∧ (∀ asserted moved, s.field.levels.powerFail ≠ asserted →
      moved = { s with
        field := { s.field with
          levels := { s.field.levels with powerFail := asserted }
          changed := { s.field.changed with powerFail := true } } } →
      (s.supply.power = .running → asserted = true →
        (∀ id, [HoseState.ready, .flowing, .slowing, .paused, .stopping].contains (s.hoses.get id).state = false) →
        exec (.powerFailWarning asserted) s = happens
          { moved with timebase := { s.timebase with holdOff := some (s.timebase.now + 20) } })
      ∧ (s.supply.power = .running → asserted = true → ∃ t, exec (.powerFailWarning asserted) s = .next t
        ∧ t.timebase = { s.timebase with holdOff := some (s.timebase.now + 20) }
        ∧ ∀ id, (openState (s.hoses.get id).state = true → ∀ x, (s.hoses.get id).session = some x →
            openState (t.hoses.get id).state = false
            ∧ ((t.hoses.get id).session.bind Session.stopCause) = some .power)
          ∧ (openState (s.hoses.get id).state = false → t.hoses.get id = s.hoses.get id))
      ∧ (s.supply.power = .running → asserted = false →
        exec (.powerFailWarning asserted) s = happens
          { moved with timebase := { s.timebase with holdOff := none } })
      ∧ (s.supply.power = .held → asserted = false → exec (.powerFailWarning asserted) s = happens (raise .restarted
        { s with
          field := { s.field with levels := { s.field.levels with powerFail := false } }
          timebase := { s.timebase with
            windowStart := s.timebase.now
            lastReset := { kind := .warm, cause := .powerFail, count := s.timebase.count } }
          supply := { s.supply with power := .running } })))
    ∧ (s.supply.power = .running → ∀ d, s.timebase.holdOff = some d → ∃ t, exec .powerFailHoldOffExpiry s = .next t
      ∧ t.timebase.holdOff = none ∧ t.port = Port.cold ∧ t.loads.valveOpen = false
      ∧ (∀ id, (t.hoses.get id).outputs = Outputs.rest) ∧ totals t = totals s
      ∧ (s.field.levels.powerFail = true →
        t.supply.power = .held ∧ t.drivePermit = false ∧ t.notices = []
        ∧ t.timebase.lastReset = s.timebase.lastReset)
      ∧ (s.field.levels.powerFail = false →
        t.supply.power = .running ∧ t.notices = [.restarted]
        ∧ t.timebase.lastReset = { kind := .warm, cause := .powerFail, count := s.timebase.count }))
    ∧ (∃ t, exec .mainPowerLoss s = .next t ∧ t.supply.power = .unpowered ∧ t.drivePermit = false
      ∧ t.loads = { s.loads with valveOpen := false } ∧ (∀ id, (t.hoses.get id).outputs = Outputs.rest)
      ∧ (t.machines, t.accounts, t.compartments, t.store, t.banks, t.timebase, t.channels, t.readers)
        = (s.machines, s.accounts, s.compartments, s.store, s.banks, s.timebase, s.channels, s.readers))

/-! ### The whole machine -/

/-- 0.2: the step takes the command at the front of the queue and executes it with the queue's rest. With an empty queue the
controller takes its own pending work as the command it is: a raised tag event, then a reader's FIFO entry, hoses and ports in
number order, then the command the port has taken; with none its 1 ms tick passes (the model's choice,
notes/assumptions/2.md). -/
def Obligations.StepExecutesTheFrontCommand : Prop :=
  (∀ (c : Instr) (rest : List Instr) (s : State),
    s.pending = c :: rest → step s = exec c { s with pending := rest })
  ∧ (∀ (s : State), s.pending = [] → s.supply.power = .running →
    (∀ id, (s.readers.get id).fifo = [] ∧ (s.readers.get id).events = []) →
    (s.port.executing = none → step s = .next
      { s with timebase := { s.timebase with
          now := s.timebase.now + 1, capture := (s.timebase.capture + 1000) % 2 ^ 32 } })
    ∧ (∀ t c, s.port.executing = some t → t.todo = .run c → s.store.write = none → step s = exec c s))
  ∧ (∀ (s : State) (id : HoseId), s.pending = [] → s.supply.power = .running →
    (∀ v rest, (s.readers.get id).events = v :: rest →
      (∀ d : HoseId, d.number < id.number → (s.readers.get d).events = []) →
      step s = exec (match v with
        | .present t => .tagPresent id t
        | .lost t => .tagLost id t
        | .changed t u => .tagChanged id t u) s)
    ∧ ((∀ d, (s.readers.get d).events = []) → (s.readers.get id).fifo ≠ [] →
      (∀ d : HoseId, d.number < id.number → (s.readers.get d).fifo = []) → step s = exec (.fifoEntryTaken id) s))

/-- Every command rule's first check: a host command with a number, a length or a value outside what its rule states is
answered MALFORMED and changes nothing. -/
def Obligations.IllFormedHostCommandsAreMalformed : Prop :=
  ∀ (c : Instr) (s : State), Ready s → fromHost c = true → wellFormed c = false →
    exec c s = completes c .malformed [] s

/-- R110: at every step the law of DRIVE PERMIT is kept: while the controller runs it is asserted exactly when all stow
switches are closed, no hose holds an open session, no reel motor runs, the inlet is uncoupled and no order is LOADING or
SETTLING. -/
def Obligations.EveryStepKeepsDrivePermitR110 : Prop :=
  ∀ (s t : State), PermitLaw s → step s = .next t → PermitLaw t

/-- R62, R166: every step keeps the tables' canonical form, the book law of the compartments and the laws of the load orders:
one active order at most, LOADING its compartment alone, the inlet open only while LOADING. -/
def Obligations.EveryStepKeepsBooksAndLoadsR62R166 : Prop :=
  ∀ (s t : State), TablesWf s → BookLaw s → LoadLaw s → step s = .next t → TablesWf t ∧ BookLaw t ∧ LoadLaw t

/-- R148, R153, R157: no command but the window expiry changes a totaliser or its wrap count, short of a cold reset; no
command but the completion of a store write changes a parameter of the Metrology Store or a change counter, short of a cold
reset or a damaged store. -/
def Obligations.TotalsAndParametersChangeOnlyAsStatedR148R153 : Prop :=
  ∀ (c : Instr) (s t : State), exec c s = .next t → (c = .powerUp → s.supply.lossLatch = false) →
    ((∀ temperatures, c ≠ .windowExpiry temperatures) → totals t = totals s)
    ∧ (c ≠ .storeWriteComplete → s.store.damaged = false → parameters t = parameters s)

/-- The state after reset meets the laws that every step keeps. -/
def Obligations.ResetMeetsTheLaws : Prop :=
  PermitLaw State.reset ∧ TablesWf State.reset ∧ BookLaw State.reset ∧ LoadLaw State.reset ∧ State.reset.pending = []
end

