-- ==== Sys2Proof/Laws/Checks.lean ====
section
/-! SUPPORT. The cyclic checks of R22, R30, R57 and R191: each is the plain fold of its register over the bytes, and
what that gives for the nine characters 1 to 9, the usual check value of such a polynomial and initial value. -/

namespace Sys2Proof.Machine

@[simp] theorem evaluated_eq {α : Type} (n : Nat) (f : Nat → α) : evaluated n f = f n := by cases n <;> rfl

theorem crcFrom_eq_foldl {w : Nat} (poly : BitVec w) (bytes : List Byte) :
    ∀ reg : BitVec w, crcFrom poly reg bytes = bytes.foldl (crcByte poly) reg := by
  induction bytes with
  | nil => intro reg; rfl
  | cons b rest ih =>
    intro reg
    simp only [crcFrom, evaluated_eq, List.foldl_cons, BitVec.ofNat_toNat, BitVec.setWidth_eq]
    exact ih _

theorem crcFrom_append {w : Nat} (poly reg : BitVec w) (a b : List Byte) :
    crcFrom poly reg (a ++ b) = crcFrom poly (crcFrom poly reg a) b := by
  simp only [crcFrom_eq_foldl, List.foldl_append]

theorem crc32_check_value : crc32 [0x31, 0x32, 0x33, 0x34, 0x35, 0x36, 0x37, 0x38, 0x39] = 0x0376E6E7 := by decide +kernel

theorem crc16_check_value : crc16 [0x31, 0x32, 0x33, 0x34, 0x35, 0x36, 0x37, 0x38, 0x39] = 0x29B1 := by decide +kernel

theorem crc8_check_value : crc8 [0x31, 0x32, 0x33, 0x34, 0x35, 0x36, 0x37, 0x38, 0x39] = 0xF4 := by decide +kernel

end Sys2Proof.Machine
end

