-- ==== Sys2Proof/Laws/Dispatch.lean ====
section
/-! SUPPORT. Which meaning each command has: one equation per constructor, so that no proof unfolds `exec`, whose match
has an arm for every command. -/

namespace Sys2Proof.Machine

@[simp] theorem exec_machineInstall (f : MachineFields) (s : State) :
    exec (.machineInstall f) s = execMachineInstall f s := rfl

@[simp] theorem exec_machineAmendChange (slot : Nat) (f : MachineFields) (s : State) :
    exec (.machineAmendChange slot f) s = execMachineAmendChange slot f s := rfl

@[simp] theorem exec_machineAmendRewrite (slot : Nat) (f : MachineFields) (used : Nat) (overrun : Nat) (fills : Nat) (s : State) :
    exec (.machineAmendRewrite slot f used overrun fills) s = execMachineAmendRewrite slot f used overrun fills s := rfl

@[simp] theorem exec_machineRead (slot : Nat) (s : State) :
    exec (.machineRead slot) s = execMachineRead slot s := rfl

@[simp] theorem exec_machineFind (key : MachineKey) (s : State) :
    exec (.machineFind key) s = execMachineFind key s := rfl

@[simp] theorem exec_machineSuspend (slot : Nat) (s : State) :
    exec (.machineSuspend slot) s = execMachineSuspend slot s := rfl

@[simp] theorem exec_machineReinstate (slot : Nat) (s : State) :
    exec (.machineReinstate slot) s = execMachineReinstate slot s := rfl

@[simp] theorem exec_machineRetire (slot : Nat) (s : State) :
    exec (.machineRetire slot) s = execMachineRetire slot s := rfl

@[simp] theorem exec_tagQuery (tag : Nat) (s : State) :
    exec (.tagQuery tag) s = execTagQuery tag s := rfl

@[simp] theorem exec_rangeWrite (entry : Nat) (e : RangeEntry) (s : State) :
    exec (.rangeWrite entry e) s = execRangeWrite entry e s := rfl

@[simp] theorem exec_rangeRead (entry : Nat) (s : State) :
    exec (.rangeRead entry) s = execRangeRead entry s := rfl

@[simp] theorem exec_defaultPolicySet (policy : Policy) (s : State) :
    exec (.defaultPolicySet policy) s = execDefaultPolicySet policy s := rfl

@[simp] theorem exec_readerSetup (port : Nat) (baud : Nat) (minQuality : Nat) (grace : Nat) (s : State) :
    exec (.readerSetup port baud minQuality grace) s = execReaderSetup port baud minQuality grace s := rfl

@[simp] theorem exec_readerStatus (port : Nat) (clear : Bool) (s : State) :
    exec (.readerStatus port clear) s = execReaderStatus port clear s := rfl

@[simp] theorem exec_accountOpen (number : Nat) (tier : Nat) (limit : Nat) (s : State) :
    exec (.accountOpen number tier limit) s = execAccountOpen number tier limit s := rfl

@[simp] theorem exec_accountAmendChange (slot : Nat) (number : Nat) (tier : Nat) (limit : Nat) (s : State) :
    exec (.accountAmendChange slot number tier limit) s = execAccountAmendChange slot number tier limit s := rfl

@[simp] theorem exec_accountAmendRewrite (slot : Nat) (number : Nat) (tier : Nat) (limit : Nat) (balance : Nat) (period : Nat) (current : PeriodFigures) (s : State) :
    exec (.accountAmendRewrite slot number tier limit balance period current) s = execAccountAmendRewrite slot number tier limit balance period current s := rfl

@[simp] theorem exec_accountRead (key : AccountKey) (s : State) :
    exec (.accountRead key) s = execAccountRead key s := rfl

@[simp] theorem exec_accountStop (slot : Nat) (s : State) :
    exec (.accountStop slot) s = execAccountStop slot s := rfl

@[simp] theorem exec_accountResume (slot : Nat) (s : State) :
    exec (.accountResume slot) s = execAccountResume slot s := rfl

@[simp] theorem exec_accountRetire (slot : Nat) (s : State) :
    exec (.accountRetire slot) s = execAccountRetire slot s := rfl

@[simp] theorem exec_settle (slot : Nat) (amount : Nat) (s : State) :
    exec (.settle slot amount) s = execSettle slot amount s := rfl

@[simp] theorem exec_periodClose (slot : Nat) (s : State) :
    exec (.periodClose slot) s = execPeriodClose slot s := rfl

@[simp] theorem exec_statementRead (slot : Nat) (s : State) :
    exec (.statementRead slot) s = execStatementRead slot s := rfl

@[simp] theorem exec_statementRelease (slot : Nat) (period : Nat) (s : State) :
    exec (.statementRelease slot period) s = execStatementRelease slot period s := rfl

@[simp] theorem exec_priceWrite (tier : Nat) (grade : Grade) (price : Nat) (s : State) :
    exec (.priceWrite tier grade price) s = execPriceWrite tier grade price s := rfl

@[simp] theorem exec_priceRead (s : State) :
    exec .priceRead s = execPriceRead s := rfl

@[simp] theorem exec_compartmentSetup (comp : Nat) (grade : Option Grade) (capacity : Nat) (threshold : Nat) (s : State) :
    exec (.compartmentSetup comp grade capacity threshold) s = execCompartmentSetup comp grade capacity threshold s := rfl

@[simp] theorem exec_compartmentService (comp : Nat) (target : ServiceTarget) (s : State) :
    exec (.compartmentService comp target) s = execCompartmentService comp target s := rfl

@[simp] theorem exec_restate (comp : Nat) (source : RestateSource) (s : State) :
    exec (.restate comp source) s = execRestate comp source s := rfl

@[simp] theorem exec_compartmentRead (comp : Nat) (s : State) :
    exec (.compartmentRead comp) s = execCompartmentRead comp s := rfl

@[simp] theorem exec_strapWrite (comp : Nat) (points : List StrapPoint) (s : State) :
    exec (.strapWrite comp points) s = execStrapWrite comp points s := rfl

@[simp] theorem exec_strapRead (comp : Nat) (s : State) :
    exec (.strapRead comp) s = execStrapRead comp s := rfl

@[simp] theorem exec_gauge (comp : Nat) (s : State) :
    exec (.gauge comp) s = execGauge comp s := rfl

@[simp] theorem exec_authoriseManual (hose : Nat) (machine : Nat) (tank : TankKind) (preset : Option Nat) (s : State) :
    exec (.authoriseManual hose machine tank preset) s = execAuthoriseManual hose machine tank preset s := rfl

@[simp] theorem exec_referReplyAccept (hose : Nat) (account : Nat) (grades : GradeSet) (limit : Nat) (s : State) :
    exec (.referReplyAccept hose account grades limit) s = execReferReplyAccept hose account grades limit s := rfl

@[simp] theorem exec_referReplyRefuse (hose : Nat) (s : State) :
    exec (.referReplyRefuse hose) s = execReferReplyRefuse hose s := rfl

@[simp] theorem exec_referReplyRecheck (hose : Nat) (s : State) :
    exec (.referReplyRecheck hose) s = execReferReplyRecheck hose s := rfl

@[simp] theorem exec_hoseSetup (hose : Nat) (f : HoseSetupFields) (s : State) :
    exec (.hoseSetup hose f) s = execHoseSetup hose f s := rfl

@[simp] theorem exec_hoseRead (hose : Nat) (s : State) :
    exec (.hoseRead hose) s = execHoseRead hose s := rfl

@[simp] theorem exec_hoseService (hose : Nat) (target : ServiceTarget) (s : State) :
    exec (.hoseService hose target) s = execHoseService hose target s := rfl

@[simp] theorem exec_fieldStatus (s : State) :
    exec .fieldStatus s = execFieldStatus s := rfl

@[simp] theorem exec_rewind (hose : Nat) (s : State) :
    exec (.rewind hose) s = execRewind hose s := rfl

@[simp] theorem exec_hoseStop (hose : Nat) (s : State) :
    exec (.hoseStop hose) s = execHoseStop hose s := rfl

@[simp] theorem exec_collect (hose : Nat) (number : Nat) (s : State) :
    exec (.collect hose number) s = execCollect hose number s := rfl

@[simp] theorem exec_sessionRead (hose : Nat) (s : State) :
    exec (.sessionRead hose) s = execSessionRead hose s := rfl

@[simp] theorem exec_meterRead (meter : Nat) (s : State) :
    exec (.meterRead meter) s = execMeterRead meter s := rfl

@[simp] theorem exec_metrologyWrite (meter : Nat) (pulseVolume : Nat) (points : List LinPoint) (s : State) :
    exec (.metrologyWrite meter pulseVolume points) s = execMetrologyWrite meter pulseVolume points s := rfl

@[simp] theorem exec_gradeCoefficientWrite (grade : Grade) (alpha : Nat) (fallback : Int) (s : State) :
    exec (.gradeCoefficientWrite grade alpha fallback) s = execGradeCoefficientWrite grade alpha fallback s := rfl

@[simp] theorem exec_storeWriteComplete (s : State) :
    exec .storeWriteComplete s = execStoreWriteComplete s := rfl

@[simp] theorem exec_metrologyRead (meter : Nat) (s : State) :
    exec (.metrologyRead meter) s = execMetrologyRead meter s := rfl

@[simp] theorem exec_proveStart (hose : Nat) (flow : Nat) (nominal : Nat) (s : State) :
    exec (.proveStart hose flow nominal) s = execProveStart hose flow nominal s := rfl

@[simp] theorem exec_proveResult (hose : Nat) (observed : Nat) (s : State) :
    exec (.proveResult hose observed) s = execProveResult hose observed s := rfl

@[simp] theorem exec_proveAbort (hose : Nat) (s : State) :
    exec (.proveAbort hose) s = execProveAbort hose s := rfl

@[simp] theorem exec_proveRead (hose : Nat) (s : State) :
    exec (.proveRead hose) s = execProveRead hose s := rfl

@[simp] theorem exec_loadCreate (comp : Nat) (grade : Grade) (expected : Nat) (docket : List Byte) (s : State) :
    exec (.loadCreate comp grade expected docket) s = execLoadCreate comp grade expected docket s := rfl

@[simp] theorem exec_loadArm (slot : Nat) (s : State) :
    exec (.loadArm slot) s = execLoadArm slot s := rfl

@[simp] theorem exec_loadCancel (slot : Nat) (s : State) :
    exec (.loadCancel slot) s = execLoadCancel slot s := rfl

@[simp] theorem exec_loadAbort (slot : Nat) (s : State) :
    exec (.loadAbort slot) s = execLoadAbort slot s := rfl

@[simp] theorem exec_loadRead (slot : Nat) (s : State) :
    exec (.loadRead slot) s = execLoadRead slot s := rfl

@[simp] theorem exec_loadRetire (slot : Nat) (s : State) :
    exec (.loadRetire slot) s = execLoadRetire slot s := rfl

@[simp] theorem exec_inletSetup (idle : Nat) (arm : Nat) (settle : Nat) (ullage : Nat) (s : State) :
    exec (.inletSetup idle arm settle ullage) s = execInletSetup idle arm settle ullage s := rfl

@[simp] theorem exec_inletRead (s : State) :
    exec .inletRead s = execInletRead s := rfl

@[simp] theorem exec_windowSet (length : Nat) (s : State) :
    exec (.windowSet length) s = execWindowSet length s := rfl

@[simp] theorem exec_clockSet (count : Nat) (s : State) :
    exec (.clockSet count) s = execClockSet count s := rfl

@[simp] theorem exec_rolloverSet (second : Nat) (s : State) :
    exec (.rolloverSet second) s = execRolloverSet second s := rfl

@[simp] theorem exec_clockRead (s : State) :
    exec .clockRead s = execClockRead s := rfl

@[simp] theorem exec_faultRead (bank : Nat) (s : State) :
    exec (.faultRead bank) s = execFaultRead bank s := rfl

@[simp] theorem exec_faultControl (bank : Nat) (enable : Nat) (s : State) :
    exec (.faultControl bank enable) s = execFaultControl bank enable s := rfl

@[simp] theorem exec_faultClear (bank : Nat) (s : State) :
    exec (.faultClear bank) s = execFaultClear bank s := rfl

@[simp] theorem exec_noticeNext (s : State) :
    exec .noticeNext s = execNoticeNext s := rfl

@[simp] theorem exec_noticeMask (mask : Nat) (s : State) :
    exec (.noticeMask mask) s = execNoticeMask mask s := rfl

@[simp] theorem exec_restart (s : State) :
    exec .restart s = execRestart s := rfl

@[simp] theorem exec_identify (s : State) :
    exec .identify s = execIdentify s := rfl

@[simp] theorem exec_commandTransaction (opening : Byte) (frame : List Byte) (s : State) :
    exec (.commandTransaction opening frame) s = execCommandTransaction opening frame s := rfl

@[simp] theorem exec_readTransaction (opening : Byte) (count : Nat) (s : State) :
    exec (.readTransaction opening count) s = execReadTransaction opening count s := rfl

@[simp] theorem exec_linkReset (s : State) :
    exec .linkReset s = execLinkReset s := rfl

@[simp] theorem exec_resetPin (s : State) :
    exec .resetPin s = execResetPin s := rfl

@[simp] theorem exec_powerUp (s : State) :
    exec .powerUp s = execPowerUp s := rfl

@[simp] theorem exec_retentionSupplyLoss (s : State) :
    exec .retentionSupplyLoss s = execRetentionSupplyLoss s := rfl

@[simp] theorem exec_powerFailWarning (asserted : Bool) (s : State) :
    exec (.powerFailWarning asserted) s = execPowerFailWarning asserted s := rfl

@[simp] theorem exec_powerFailHoldOffExpiry (s : State) :
    exec .powerFailHoldOffExpiry s = execPowerFailHoldOffExpiry s := rfl

@[simp] theorem exec_emergencyStop (asserted : Bool) (s : State) :
    exec (.emergencyStop asserted) s = execEmergencyStop asserted s := rfl

@[simp] theorem exec_parkBrake (applied : Bool) (s : State) :
    exec (.parkBrake applied) s = execParkBrake applied s := rfl

@[simp] theorem exec_nozzleSwitch (hose : HoseId) (offHook : Bool) (s : State) :
    exec (.nozzleSwitch hose offHook) s = execNozzleSwitch hose offHook s := rfl

@[simp] theorem exec_startInput (hose : HoseId) (asserted : Bool) (s : State) :
    exec (.startInput hose asserted) s = execStartInput hose asserted s := rfl

@[simp] theorem exec_stowSwitch (hose : HoseId) (closed : Bool) (s : State) :
    exec (.stowSwitch hose closed) s = execStowSwitch hose closed s := rfl

@[simp] theorem exec_inletCoupling (coupled : Bool) (s : State) :
    exec (.inletCoupling coupled) s = execInletCoupling coupled s := rfl

@[simp] theorem exec_highLevelSwitch (comp : CompId) (high : Bool) (s : State) :
    exec (.highLevelSwitch comp high) s = execHighLevelSwitch comp high s := rfl

@[simp] theorem exec_sealSwitch (closed : Bool) (s : State) :
    exec (.sealSwitch closed) s = execSealSwitch closed s := rfl

@[simp] theorem exec_receiverCharacter (port : HoseId) (data : Byte) (tail : CharacterTail) (s : State) :
    exec (.receiverCharacter port data tail) s = execReceiverCharacter port data tail s := rfl

@[simp] theorem exec_lineBreak (line : HeldLine) (s : State) :
    exec (.lineBreak line) s = execLineBreak line s := rfl

@[simp] theorem exec_idleEvent (port : HoseId) (s : State) :
    exec (.idleEvent port) s = execIdleEvent port s := rfl

@[simp] theorem exec_fifoEntryTaken (port : HoseId) (s : State) :
    exec (.fifoEntryTaken port) s = execFifoEntryTaken port s := rfl

@[simp] theorem exec_silenceTimerExpiry (port : HoseId) (s : State) :
    exec (.silenceTimerExpiry port) s = execSilenceTimerExpiry port s := rfl

@[simp] theorem exec_graceExpiry (port : HoseId) (s : State) :
    exec (.graceExpiry port) s = execGraceExpiry port s := rfl

@[simp] theorem exec_tagPresent (hose : HoseId) (tag : Nat) (s : State) :
    exec (.tagPresent hose tag) s = execTagPresent hose tag s := rfl

@[simp] theorem exec_tagLost (hose : HoseId) (tag : Nat) (s : State) :
    exec (.tagLost hose tag) s = execTagLost hose tag s := rfl

@[simp] theorem exec_tagChanged (hose : HoseId) (old : Nat) (new : Nat) (s : State) :
    exec (.tagChanged hose old new) s = execTagChanged hose old new s := rfl

@[simp] theorem exec_referDeadlineExpiry (hose : HoseId) (s : State) :
    exec (.referDeadlineExpiry hose) s = execReferDeadlineExpiry hose s := rfl

@[simp] theorem exec_readyTimerExpiry (hose : HoseId) (s : State) :
    exec (.readyTimerExpiry hose) s = execReadyTimerExpiry hose s := rfl

@[simp] theorem exec_resumeTimerExpiry (hose : HoseId) (s : State) :
    exec (.resumeTimerExpiry hose) s = execResumeTimerExpiry hose s := rfl

@[simp] theorem exec_settleTimerExpiry (hose : HoseId) (s : State) :
    exec (.settleTimerExpiry hose) s = execSettleTimerExpiry hose s := rfl

@[simp] theorem exec_rewindTimerExpiry (hose : HoseId) (s : State) :
    exec (.rewindTimerExpiry hose) s = execRewindTimerExpiry hose s := rfl

@[simp] theorem exec_proveReadyTimeout (hose : HoseId) (s : State) :
    exec (.proveReadyTimeout hose) s = execProveReadyTimeout hose s := rfl

@[simp] theorem exec_proveSettleTimerExpiry (hose : HoseId) (s : State) :
    exec (.proveSettleTimerExpiry hose) s = execProveSettleTimerExpiry hose s := rfl

@[simp] theorem exec_armTimerExpiry (s : State) :
    exec .armTimerExpiry s = execArmTimerExpiry s := rfl

@[simp] theorem exec_inletIdleTimerExpiry (s : State) :
    exec .inletIdleTimerExpiry s = execInletIdleTimerExpiry s := rfl

@[simp] theorem exec_loadSettleTimerExpiry (s : State) :
    exec .loadSettleTimerExpiry s = execLoadSettleTimerExpiry s := rfl

@[simp] theorem exec_windowExpiry (temperatures : ByFour Int) (s : State) :
    exec (.windowExpiry temperatures) s = execWindowExpiry temperatures s := rfl

@[simp] theorem exec_forwardPulse (meter : MeterId) (capture : Nat) (s : State) :
    exec (.forwardPulse meter capture) s = execForwardPulse meter capture s := rfl

@[simp] theorem exec_reversePulse (meter : MeterId) (s : State) :
    exec (.reversePulse meter) s = execReversePulse meter s := rfl

@[simp] theorem exec_illegalTransition (meter : MeterId) (s : State) :
    exec (.illegalTransition meter) s = execIllegalTransition meter s := rfl

@[simp] theorem exec_pwmPeriodStart (s : State) :
    exec .pwmPeriodStart s = execPwmPeriodStart s := rfl

@[simp] theorem exec_probeSample (samples : ByFour RawSample) (s : State) :
    exec (.probeSample samples) s = execProbeSample samples s := rfl

@[simp] theorem exec_siteClockSecond (s : State) :
    exec .siteClockSecond s = execSiteClockSecond s := rfl

@[simp] theorem exec_pulserQuarterStep (meter : MeterId) (forward : Bool) (s : State) :
    exec (.pulserQuarterStep meter forward) s = execPulserQuarterStep meter forward s := rfl

@[simp] theorem exec_lineTemperatureValidityChange (hose : HoseId) (reading : Int) (s : State) :
    exec (.lineTemperatureValidityChange hose reading) s = execLineTemperatureValidityChange hose reading s := rfl

@[simp] theorem exec_mainPowerLoss (s : State) :
    exec .mainPowerLoss s = execMainPowerLoss s := rfl

end Sys2Proof.Machine
end

