-- ==== Sys2Proof/Laws/PerInstr.lean ====
section
/-! SUPPORT. The per-command family FieldsFit: the numbers a well-formed command carries fit the widths in which a frame
carries them (R194). WINDOW SET is left out of the widths: it takes any length and clamps it. -/

namespace Sys2Proof.Machine

/-- A tank sub-record's numbers. -/
def tankWidths (t : Tank) : List (Nat × Nat) :=
  (t.tag, 6) :: (t.capacity, 2) :: t.ceiling.toList.map (fun n => (n, 2))

def machineWidths (f : MachineFields) : List (Nat × Nat) :=
  [(f.number, 4), (f.account, 1), (f.allowance, 2)] ++ f.fuel.toList.flatMap tankWidths ++ f.fluid.toList.flatMap tankWidths

def keyWidths : MachineKey → List (Nat × Nat)
  | .tag t => [(t, 6)]
  | .number n => [(n, 4)]

def accountKeyWidths : AccountKey → List (Nat × Nat)
  | .slot n => [(n, 1)]
  | .number n => [(n, 2)]

def sourceWidths : RestateSource → List (Nat × Nat)
  | .host v => [(v, 8)]
  | .gauge => []

/-- The numbers of HOSE SETUP that are not clamped, and that follow the preference list. -/
def setupWidths (f : HoseSetupFields) : List (Nat × Nat) :=
  [(f.minFill, 2), (f.slowDown, 1), (f.lead, 1), (f.startDuty, 2), (f.readyTimeout, 2), (f.resumeWindow, 2),
    (f.noFlowWindows, 1), (f.noFlowThreshold, 1), (f.stopSettle, 1), (f.creepLimit, 1), (f.rewindLimit, 1),
    (f.referDeadline, 1)]

/-- The numbers a command carries, each with its width in bytes. -/
def fieldWidths : Instr → List (Nat × Nat)
  | .machineInstall f => machineWidths f
  | .machineAmendChange slot f => (slot, 2) :: machineWidths f
  | .machineAmendRewrite slot f used overrun fills => (slot, 2) :: (used, 8) :: (overrun, 8) :: (fills, 2) :: machineWidths f
  | .machineRead slot => [(slot, 2)]
  | .machineFind key => keyWidths key
  | .machineSuspend slot => [(slot, 2)]
  | .machineReinstate slot => [(slot, 2)]
  | .machineRetire slot => [(slot, 2)]
  | .tagQuery tag => [(tag, 6)]
  | .rangeWrite entry e => [(entry, 1), (e.base, 6), (e.mask, 6), (e.account, 1), (e.limit, 2)]
  | .rangeRead entry => [(entry, 1)]
  | .defaultPolicySet _ => []
  | .readerSetup port baud minQuality grace => [(port, 1), (baud, 2), (minQuality, 1), (grace, 2)]
  | .readerStatus port _ => [(port, 1)]
  | .accountOpen number tier limit => [(number, 2), (tier, 1), (limit, 8)]
  | .accountAmendChange slot number tier limit => [(slot, 1), (number, 2), (tier, 1), (limit, 8)]
  | .accountAmendRewrite slot number tier limit balance period current => [(slot, 1), (number, 2), (tier, 1), (limit, 8), (balance, 8), (period, 2), (current.net.g1, 8), (current.net.g2, 8),
      (current.net.g3, 8), (current.charges, 8), (current.fills, 2)]
  | .accountRead key => accountKeyWidths key
  | .accountStop slot => [(slot, 1)]
  | .accountResume slot => [(slot, 1)]
  | .accountRetire slot => [(slot, 1)]
  | .settle slot amount => [(slot, 1), (amount, 8)]
  | .periodClose slot => [(slot, 1)]
  | .statementRead slot => [(slot, 1)]
  | .statementRelease slot period => [(slot, 1), (period, 2)]
  | .priceWrite tier _ price => [(tier, 1), (price, 4)]
  | .priceRead => []
  | .compartmentSetup comp _ capacity threshold => [(comp, 1), (capacity, 2), (threshold, 2)]
  | .compartmentService comp _ => [(comp, 1)]
  | .restate comp source => (comp, 1) :: sourceWidths source
  | .compartmentRead comp => [(comp, 1)]
  | .strapWrite comp points => (comp, 1) :: (points.length, 1) :: points.flatMap (fun p => [(p.level, 2), (p.volume, 2)])
  | .strapRead comp => [(comp, 1)]
  | .gauge comp => [(comp, 1)]
  | .authoriseManual hose machine _ preset => (hose, 1) :: (machine, 4) :: preset.toList.map (fun n => (n, 2))
  | .referReplyAccept hose account _ limit => [(hose, 1), (account, 1), (limit, 2)]
  | .referReplyRefuse hose => [(hose, 1)]
  | .referReplyRecheck hose => [(hose, 1)]
  | .hoseSetup hose f => (hose, 1) :: (f.preference.length, 1) :: f.preference.map (fun n => (n, 1)) ++ setupWidths f
  | .hoseRead hose => [(hose, 1)]
  | .hoseService hose _ => [(hose, 1)]
  | .fieldStatus => []
  | .rewind hose => [(hose, 1)]
  | .hoseStop hose => [(hose, 1)]
  | .collect hose number => [(hose, 1), (number, 2)]
  | .sessionRead hose => [(hose, 1)]
  | .meterRead meter => [(meter, 1)]
  | .metrologyWrite meter pulseVolume points => (meter, 1) :: (pulseVolume, 4) :: (points.length, 1) :: points.flatMap (fun p => [(p.flow, 2), (p.factor, 4)])
  | .gradeCoefficientWrite _ alpha _ => [(alpha, 2)]
  | .storeWriteComplete => []
  | .metrologyRead meter => [(meter, 1)]
  | .proveStart hose flow nominal => [(hose, 1), (flow, 2), (nominal, 2)]
  | .proveResult hose observed => [(hose, 1), (observed, 4)]
  | .proveAbort hose => [(hose, 1)]
  | .proveRead hose => [(hose, 1)]
  | .loadCreate comp _ expected docket => [(comp, 1), (expected, 2), (docket.length, 1)]
  | .loadArm slot => [(slot, 1)]
  | .loadCancel slot => [(slot, 1)]
  | .loadAbort slot => [(slot, 1)]
  | .loadRead slot => [(slot, 1)]
  | .loadRetire slot => [(slot, 1)]
  | .inletSetup idle arm settle ullage => [(idle, 2), (arm, 1), (settle, 2), (ullage, 1)]
  | .inletRead => []
  | .windowSet _ => []
  | .clockSet count => [(count, 4)]
  | .rolloverSet second => [(second, 4)]
  | .clockRead => []
  | .faultRead bank => [(bank, 1)]
  | .faultControl bank enable => [(bank, 1), (enable, 1)]
  | .faultClear bank => [(bank, 1)]
  | .noticeNext => []
  | .noticeMask mask => [(mask, 1)]
  | .restart => []
  | .identify => []
  | .commandTransaction _ _ => []
  | .readTransaction _ _ => []
  | .linkReset => []
  | .resetPin => []
  | .powerUp => []
  | .retentionSupplyLoss => []
  | .powerFailWarning _ => []
  | .powerFailHoldOffExpiry => []
  | .emergencyStop _ => []
  | .parkBrake _ => []
  | .nozzleSwitch _ _ => []
  | .startInput _ _ => []
  | .stowSwitch _ _ => []
  | .inletCoupling _ => []
  | .highLevelSwitch _ _ => []
  | .sealSwitch _ => []
  | .receiverCharacter _ _ _ => []
  | .lineBreak _ => []
  | .idleEvent _ => []
  | .fifoEntryTaken _ => []
  | .silenceTimerExpiry _ => []
  | .graceExpiry _ => []
  | .tagPresent _ tag => [(tag, 6)]
  | .tagLost _ tag => [(tag, 6)]
  | .tagChanged _ old new => [(old, 6), (new, 6)]
  | .referDeadlineExpiry _ => []
  | .readyTimerExpiry _ => []
  | .resumeTimerExpiry _ => []
  | .settleTimerExpiry _ => []
  | .rewindTimerExpiry _ => []
  | .proveReadyTimeout _ => []
  | .proveSettleTimerExpiry _ => []
  | .armTimerExpiry => []
  | .inletIdleTimerExpiry => []
  | .loadSettleTimerExpiry => []
  | .windowExpiry _ => []
  | .forwardPulse _ capture => [(capture, 4)]
  | .reversePulse _ => []
  | .illegalTransition _ => []
  | .pwmPeriodStart => []
  | .probeSample samples => [(samples.one.level, 2), (samples.two.level, 2), (samples.three.level, 2), (samples.four.level, 2)]
  | .siteClockSecond => []
  | .pulserQuarterStep _ _ => []
  | .lineTemperatureValidityChange _ _ => []
  | .mainPowerLoss => []

/-- A number fits its width. -/
def fits (p : Nat × Nat) : Prop := p.1 < 256 ^ p.2

/-! ### Lemmas over the shared field sets -/

theorem inRange_iff {lo hi n : Nat} : inRange lo hi n = true ↔ lo ≤ n ∧ n ≤ hi := by simp [inRange]

theorem constants : Config.moneyMax = 9223372036854775807 ∧ Config.countMax = 65535 ∧ Config.volumeMax = 1099511627775 ∧
    Config.clockModulus = 4294967296 ∧ Config.dayLength = 86400 ∧ Config.maxTag = 281474976710655 := by decide

theorem machineSlotOk_iff {n : Nat} : machineSlotOk n = true ↔ n < 1024 := decide_eq_true_iff

theorem accountSlotOk_iff {n : Nat} : accountSlotOk n = true ↔ n < 256 := decide_eq_true_iff

theorem loadSlotOk_iff {n : Nat} : loadSlotOk n = true ↔ n < 8 := decide_eq_true_iff

theorem tagOk_iff {n : Nat} : tagOk n = true ↔ 1 ≤ n ∧ n ≤ 281474976710655 := inRange_iff

theorem hoseOk_le {n : Nat} (h : hoseOk n = true) : n ≤ 3 := by
  unfold hoseOk hoseOf at h
  split at h <;> first | omega | simp at h

theorem fourOk_le {n : Nat} (h : fourOk n = true) : n ≤ 4 := by
  unfold fourOk fourOf at h
  split at h <;> first | omega | simp at h

theorem tierOk_le {n : Nat} (h : tierOk n = true) : n ≤ 3 := by
  unfold tierOk tierOf fourOf at h
  split at h <;> first | omega | simp at h

theorem bankOf_le {n : Nat} (h : (bankOf n).isSome = true) : n ≤ 13 := by
  unfold bankOf at h
  split at h <;> first | omega | simp at h

theorem tankWidths_fit {t : Tank} (h : fuelTankOk t = true ∨ fluidTankOk t = true) : ∀ p ∈ tankWidths t, fits p := by
  have hc : ∀ n, t.ceiling = some n → n ≤ 1000 := by
    intro n hn
    rcases h with h | h <;> simp [fuelTankOk, fluidTankOk, ceilingOk, hn, inRange_iff] at h <;> omega
  have hk : t.tag < 256 ^ 6 ∧ t.capacity < 256 ^ 2 := by
    rcases h with h | h <;> simp [fuelTankOk, fluidTankOk, tagOk, Config.maxTag, inRange_iff] at h <;> omega
  intro p hp
  simp only [tankWidths, List.mem_cons, List.mem_map, Option.mem_toList] at hp
  rcases hp with rfl | rfl | ⟨n, hn, rfl⟩
  · exact hk.1
  · exact hk.2
  · have := hc n hn
    show n < 256 ^ 2
    omega

theorem machineWidths_fit {f : MachineFields} (h : machineFieldsOk f = true) : ∀ p ∈ machineWidths f, fits p := by
  simp only [machineFieldsOk, Bool.and_eq_true, inRange_iff, accountSlotOk_iff] at h
  obtain ⟨⟨⟨h1, h2⟩, h3⟩, h4⟩ := h
  intro p hp
  simp only [machineWidths, List.mem_append, List.mem_cons, List.mem_flatMap, Option.mem_toList, List.not_mem_nil,
    or_false] at hp
  rcases hp with ((rfl | rfl | rfl) | ⟨t, ht, hp⟩) | ⟨t, ht, hp⟩
  · show f.number < 256 ^ 4; omega
  · show f.account < 256 ^ 1; omega
  · show f.allowance < 256 ^ 2; omega
  · refine tankWidths_fit (.inl ?_) p hp
    cases hu : f.fluid <;> simp_all [tanksOk]
  · refine tankWidths_fit (.inr ?_) p hp
    cases hu : f.fuel <;> simp_all [tanksOk]

theorem preference_le {ns : List Nat} {cs : List CompId} (h : preferenceOf ns = some cs) :
    ns.length ≤ 4 ∧ ∀ n ∈ ns, n ≤ 4 := by
  have key : ∀ (ns : List Nat) (cs : List CompId), ns.mapM fourOf = some cs →
      ns.length = cs.length ∧ ∀ n ∈ ns, n ≤ 4 := by
    intro ns
    induction ns with
    | nil => intro cs h; simp at h; subst h; simp
    | cons a r ih =>
      intro cs h
      simp only [List.mapM_cons] at h
      cases ha : fourOf a with
      | none => simp [ha] at h
      | some x =>
        cases hr : r.mapM fourOf with
        | none => simp [ha, hr] at h
        | some xs =>
          simp [ha, hr] at h
          subst h
          obtain ⟨h1, h2⟩ := ih xs hr
          refine ⟨by simp [h1], fun n hn => ?_⟩
          rcases List.mem_cons.1 hn with rfl | hn
          · exact fourOk_le (by simp [fourOk, ha])
          · exact h2 n hn
  simp only [preferenceOf] at h
  split at h
  · simp at h
  · rename_i xs hx
    split at h
    · rename_i hc
      simp only [Bool.and_eq_true, inRange_iff] at hc
      obtain rfl := Option.some.inj h
      exact ⟨by rw [(key ns _ hx).1]; omega, (key ns _ hx).2⟩
    · simp at h

end Sys2Proof.Machine

namespace Sys2Proof.Laws.FieldsFit

open Sys2Proof.Machine

/-- R194: every number of a well-formed command fits its field's width. -/
def Statement (i : Instr) : Prop := wellFormed i = true → ∀ p ∈ fieldWidths i, fits p



theorem machineInstall (f : MachineFields) : Statement (.machineInstall f) := by
  intro h
  exact machineWidths_fit h

theorem machineAmendChange (slot : Nat) (f : MachineFields) : Statement (.machineAmendChange slot f) := by
  intro h
  change (machineSlotOk slot && machineFieldsOk f) = true at h
  simp only [Bool.and_eq_true, machineSlotOk_iff] at h
  intro p hp
  rcases List.mem_cons.1 hp with rfl | hp
  · show slot < 256 ^ 2; omega
  · exact machineWidths_fit h.2 p hp

theorem machineAmendRewrite (slot : Nat) (f : MachineFields) (used : Nat) (overrun : Nat) (fills : Nat) : Statement (.machineAmendRewrite slot f used overrun fills) := by
  intro h
  change (machineSlotOk slot && machineFieldsOk f && rewriteFiguresOk used overrun fills) = true at h
  simp only [Bool.and_eq_true, machineSlotOk_iff, rewriteFiguresOk,
    decide_eq_true_eq] at h
  obtain ⟨⟨h1, h2⟩, ⟨h3, h4⟩, h5⟩ := h
  intro p hp
  change p ∈ (slot, 2) :: (used, 8) :: (overrun, 8) :: (fills, 2) :: machineWidths f at hp
  simp only [List.mem_cons] at hp
  rcases hp with rfl | rfl | rfl | rfl | hp
  · show slot < 256 ^ 2; omega
  · show used < 256 ^ 8; omega
  · show overrun < 256 ^ 8; omega
  · show fills < 256 ^ 2; have hc := constants; omega
  · exact machineWidths_fit h2 p hp

theorem machineRead (slot : Nat) : Statement (.machineRead slot) := by
  intro h
  change (machineSlotOk slot) = true at h
  simp only [machineSlotOk_iff] at h
  intro p hp
  change p ∈ [(slot, 2)] at hp
  simp only [List.mem_cons, List.not_mem_nil, or_false] at hp
  obtain rfl := hp
  simp only [fits]
  have hc := constants
  omega

theorem machineFind (key : MachineKey) : Statement (.machineFind key) := by
  intro h
  change (machineKeyOk key) = true at h
  intro p hp
  change p ∈ keyWidths key at hp
  cases key <;> simp only [machineKeyOk, tagOk_iff, inRange_iff] at h <;>
    simp only [keyWidths, List.mem_singleton] at hp <;> obtain rfl := hp <;> simp only [fits] <;> omega

theorem machineSuspend (slot : Nat) : Statement (.machineSuspend slot) := by
  intro h
  change (machineSlotOk slot) = true at h
  simp only [machineSlotOk_iff] at h
  intro p hp
  change p ∈ [(slot, 2)] at hp
  simp only [List.mem_cons, List.not_mem_nil, or_false] at hp
  obtain rfl := hp
  simp only [fits]
  have hc := constants
  omega

theorem machineReinstate (slot : Nat) : Statement (.machineReinstate slot) := by
  intro h
  change (machineSlotOk slot) = true at h
  simp only [machineSlotOk_iff] at h
  intro p hp
  change p ∈ [(slot, 2)] at hp
  simp only [List.mem_cons, List.not_mem_nil, or_false] at hp
  obtain rfl := hp
  simp only [fits]
  have hc := constants
  omega

theorem machineRetire (slot : Nat) : Statement (.machineRetire slot) := by
  intro h
  change (machineSlotOk slot) = true at h
  simp only [machineSlotOk_iff] at h
  intro p hp
  change p ∈ [(slot, 2)] at hp
  simp only [List.mem_cons, List.not_mem_nil, or_false] at hp
  obtain rfl := hp
  simp only [fits]
  have hc := constants
  omega

theorem tagQuery (tag : Nat) : Statement (.tagQuery tag) := by
  intro h
  change (tagOk tag) = true at h
  simp only [tagOk_iff] at h
  intro p hp
  change p ∈ [(tag, 6)] at hp
  simp only [List.mem_cons, List.not_mem_nil, or_false] at hp
  obtain rfl := hp
  simp only [fits]
  have hc := constants
  omega

theorem rangeWrite (entry : Nat) (e : RangeEntry) : Statement (.rangeWrite entry e) := by
  intro h
  change (decide (entry < 8) && rangeEntryOk e) = true at h
  simp only [rangeEntryOk, inRange_iff, accountSlotOk_iff, Bool.and_eq_true, decide_eq_true_eq] at h
  intro p hp
  change p ∈ [(entry, 1), (e.base, 6), (e.mask, 6), (e.account, 1), (e.limit, 2)] at hp
  simp only [List.mem_cons, List.not_mem_nil, or_false] at hp
  rcases hp with rfl | rfl | rfl | rfl | rfl <;> (simp only [fits]; have hc := constants; omega)

theorem rangeRead (entry : Nat) : Statement (.rangeRead entry) := by
  intro h
  change (decide (entry < 8)) = true at h
  simp only [decide_eq_true_eq] at h
  intro p hp
  change p ∈ [(entry, 1)] at hp
  simp only [List.mem_cons, List.not_mem_nil, or_false] at hp
  obtain rfl := hp
  simp only [fits]
  have hc := constants
  omega

theorem defaultPolicySet (policy : Policy) : Statement (.defaultPolicySet policy) := by
  intro _ p hp
  change p ∈ ([] : List (Nat × Nat)) at hp
  simp at hp

theorem readerSetup (port : Nat) (baud : Nat) (minQuality : Nat) (grace : Nat) : Statement (.readerSetup port baud minQuality grace) := by
  intro h
  change (hoseOk port && readerFieldsOk baud minQuality grace) = true at h
  have := hoseOk_le (n := port) (by simp_all)
  simp only [readerFieldsOk, Bool.or_eq_true, beq_iff_eq, inRange_iff, Bool.and_eq_true] at h
  intro p hp
  change p ∈ [(port, 1), (baud, 2), (minQuality, 1), (grace, 2)] at hp
  simp only [List.mem_cons, List.not_mem_nil, or_false] at hp
  rcases hp with rfl | rfl | rfl | rfl <;> (simp only [fits]; have hc := constants; omega)

theorem readerStatus (port : Nat) (clear : Bool) : Statement (.readerStatus port clear) := by
  intro h
  change (hoseOk port) = true at h
  have := hoseOk_le (n := port) (by simp_all)
  intro p hp
  change p ∈ [(port, 1)] at hp
  simp only [List.mem_cons, List.not_mem_nil, or_false] at hp
  obtain rfl := hp
  simp only [fits]
  have hc := constants
  omega

theorem accountOpen (number : Nat) (tier : Nat) (limit : Nat) : Statement (.accountOpen number tier limit) := by
  intro h
  change (tierOk tier && accountFieldsOk number limit) = true at h
  have := tierOk_le (n := tier) (by simp_all)
  simp only [accountFieldsOk, inRange_iff, Bool.and_eq_true, decide_eq_true_eq] at h
  intro p hp
  change p ∈ [(number, 2), (tier, 1), (limit, 8)] at hp
  simp only [List.mem_cons, List.not_mem_nil, or_false] at hp
  rcases hp with rfl | rfl | rfl <;> (simp only [fits]; have hc := constants; omega)

theorem accountAmendChange (slot : Nat) (number : Nat) (tier : Nat) (limit : Nat) : Statement (.accountAmendChange slot number tier limit) := by
  intro h
  change (tierOk tier && accountSlotOk slot && accountFieldsOk number limit) = true at h
  have := tierOk_le (n := tier) (by simp_all)
  simp only [accountSlotOk_iff, accountFieldsOk, inRange_iff, Bool.and_eq_true, decide_eq_true_eq] at h
  intro p hp
  change p ∈ [(slot, 1), (number, 2), (tier, 1), (limit, 8)] at hp
  simp only [List.mem_cons, List.not_mem_nil, or_false] at hp
  rcases hp with rfl | rfl | rfl | rfl <;> (simp only [fits]; have hc := constants; omega)

theorem accountAmendRewrite (slot : Nat) (number : Nat) (tier : Nat) (limit : Nat) (balance : Nat) (period : Nat) (current : PeriodFigures) : Statement (.accountAmendRewrite slot number tier limit balance period current) := by
  intro h
  change (tierOk tier && accountSlotOk slot && accountFieldsOk number limit && decide (balance ≤ Config.moneyMax) && inRange 1 65535 period && periodFiguresOk current) = true at h
  have := tierOk_le (n := tier) (by simp_all)
  simp only [accountSlotOk_iff, accountFieldsOk, inRange_iff, Bool.and_eq_true, decide_eq_true_eq, periodFiguresOk, ByGrade.toList, List.all_cons, List.all_nil] at h
  intro p hp
  change p ∈ [(slot, 1), (number, 2), (tier, 1), (limit, 8), (balance, 8), (period, 2), (current.net.g1, 8), (current.net.g2, 8), (current.net.g3, 8), (current.charges, 8), (current.fills, 2)] at hp
  simp only [List.mem_cons, List.not_mem_nil, or_false] at hp
  rcases hp with rfl | rfl | rfl | rfl | rfl | rfl | rfl | rfl | rfl | rfl | rfl <;> (simp only [fits]; have hc := constants; omega)

theorem accountRead (key : AccountKey) : Statement (.accountRead key) := by
  intro h
  change (accountKeyOk key) = true at h
  intro p hp
  change p ∈ accountKeyWidths key at hp
  cases key <;> simp only [accountKeyOk, accountSlotOk_iff, inRange_iff] at h <;>
    simp only [accountKeyWidths, List.mem_singleton] at hp <;> obtain rfl := hp <;> simp only [fits] <;> omega

theorem accountStop (slot : Nat) : Statement (.accountStop slot) := by
  intro h
  change (accountSlotOk slot) = true at h
  simp only [accountSlotOk_iff] at h
  intro p hp
  change p ∈ [(slot, 1)] at hp
  simp only [List.mem_cons, List.not_mem_nil, or_false] at hp
  obtain rfl := hp
  simp only [fits]
  have hc := constants
  omega

theorem accountResume (slot : Nat) : Statement (.accountResume slot) := by
  intro h
  change (accountSlotOk slot) = true at h
  simp only [accountSlotOk_iff] at h
  intro p hp
  change p ∈ [(slot, 1)] at hp
  simp only [List.mem_cons, List.not_mem_nil, or_false] at hp
  obtain rfl := hp
  simp only [fits]
  have hc := constants
  omega

theorem accountRetire (slot : Nat) : Statement (.accountRetire slot) := by
  intro h
  change (accountSlotOk slot) = true at h
  simp only [accountSlotOk_iff] at h
  intro p hp
  change p ∈ [(slot, 1)] at hp
  simp only [List.mem_cons, List.not_mem_nil, or_false] at hp
  obtain rfl := hp
  simp only [fits]
  have hc := constants
  omega

theorem settle (slot : Nat) (amount : Nat) : Statement (.settle slot amount) := by
  intro h
  change (accountSlotOk slot && decide (amount ≤ Config.moneyMax)) = true at h
  simp only [accountSlotOk_iff, decide_eq_true_eq, Bool.and_eq_true] at h
  intro p hp
  change p ∈ [(slot, 1), (amount, 8)] at hp
  simp only [List.mem_cons, List.not_mem_nil, or_false] at hp
  rcases hp with rfl | rfl <;> (simp only [fits]; have hc := constants; omega)

theorem periodClose (slot : Nat) : Statement (.periodClose slot) := by
  intro h
  change (accountSlotOk slot) = true at h
  simp only [accountSlotOk_iff] at h
  intro p hp
  change p ∈ [(slot, 1)] at hp
  simp only [List.mem_cons, List.not_mem_nil, or_false] at hp
  obtain rfl := hp
  simp only [fits]
  have hc := constants
  omega

theorem statementRead (slot : Nat) : Statement (.statementRead slot) := by
  intro h
  change (accountSlotOk slot) = true at h
  simp only [accountSlotOk_iff] at h
  intro p hp
  change p ∈ [(slot, 1)] at hp
  simp only [List.mem_cons, List.not_mem_nil, or_false] at hp
  obtain rfl := hp
  simp only [fits]
  have hc := constants
  omega

theorem statementRelease (slot : Nat) (period : Nat) : Statement (.statementRelease slot period) := by
  intro h
  change (accountSlotOk slot && decide (period ≤ 65535)) = true at h
  simp only [accountSlotOk_iff, decide_eq_true_eq, Bool.and_eq_true] at h
  intro p hp
  change p ∈ [(slot, 1), (period, 2)] at hp
  simp only [List.mem_cons, List.not_mem_nil, or_false] at hp
  rcases hp with rfl | rfl <;> (simp only [fits]; have hc := constants; omega)

theorem priceWrite (tier : Nat) (grade : Grade) (price : Nat) : Statement (.priceWrite tier grade price) := by
  intro h
  change (tierOk tier && decide (price < 1000000)) = true at h
  have := tierOk_le (n := tier) (by simp_all)
  simp only [decide_eq_true_eq, Bool.and_eq_true] at h
  intro p hp
  change p ∈ [(tier, 1), (price, 4)] at hp
  simp only [List.mem_cons, List.not_mem_nil, or_false] at hp
  rcases hp with rfl | rfl <;> (simp only [fits]; have hc := constants; omega)

theorem priceRead : Statement .priceRead := by
  intro _ p hp
  change p ∈ ([] : List (Nat × Nat)) at hp
  simp at hp

theorem compartmentSetup (comp : Nat) (grade : Option Grade) (capacity : Nat) (threshold : Nat) : Statement (.compartmentSetup comp grade capacity threshold) := by
  intro h
  change (fourOk comp && inRange 100 20000 capacity && decide (threshold ≤ 20000)) = true at h
  have := fourOk_le (n := comp) (by simp_all)
  simp only [inRange_iff, decide_eq_true_eq, Bool.and_eq_true] at h
  intro p hp
  change p ∈ [(comp, 1), (capacity, 2), (threshold, 2)] at hp
  simp only [List.mem_cons, List.not_mem_nil, or_false] at hp
  rcases hp with rfl | rfl | rfl <;> (simp only [fits]; have hc := constants; omega)

theorem compartmentService (comp : Nat) (target : ServiceTarget) : Statement (.compartmentService comp target) := by
  intro h
  change (fourOk comp) = true at h
  have := fourOk_le (n := comp) (by simp_all)
  intro p hp
  change p ∈ [(comp, 1)] at hp
  simp only [List.mem_cons, List.not_mem_nil, or_false] at hp
  obtain rfl := hp
  simp only [fits]
  have hc := constants
  omega

theorem restate (comp : Nat) (source : RestateSource) : Statement (.restate comp source) := by
  intro h
  change (fourOk comp && restateSourceOk source) = true at h
  simp only [Bool.and_eq_true] at h
  have h0 := fourOk_le h.1
  have hc := constants
  intro p hp
  change p ∈ (comp, 1) :: sourceWidths source at hp
  simp only [List.mem_cons] at hp
  rcases hp with rfl | hp
  · show comp < 256 ^ 1; omega
  · cases source with
    | host v =>
      obtain rfl := List.mem_singleton.1 hp
      have h1 : v ≤ Config.volumeMax := of_decide_eq_true h.2
      show v < 256 ^ 8
      omega
    | gauge => simp [sourceWidths] at hp

theorem compartmentRead (comp : Nat) : Statement (.compartmentRead comp) := by
  intro h
  change (fourOk comp) = true at h
  have := fourOk_le (n := comp) (by simp_all)
  intro p hp
  change p ∈ [(comp, 1)] at hp
  simp only [List.mem_cons, List.not_mem_nil, or_false] at hp
  obtain rfl := hp
  simp only [fits]
  have hc := constants
  omega

theorem strapWrite (comp : Nat) (points : List StrapPoint) : Statement (.strapWrite comp points) := by
  intro h
  change (fourOk comp && strapOk points) = true at h
  simp only [Bool.and_eq_true, strapOk, List.all_eq_true, inRange_iff, decide_eq_true_eq] at h
  obtain ⟨h0, ⟨⟨h1, h2⟩, -⟩, -⟩ := h
  have h3 := fourOk_le h0
  intro p hp
  change p ∈ (comp, 1) :: (points.length, 1) :: points.flatMap (fun p => [(p.level, 2), (p.volume, 2)]) at hp
  simp only [List.mem_cons, List.mem_flatMap, List.not_mem_nil, or_false] at hp
  rcases hp with rfl | rfl | ⟨q, hq, rfl | rfl⟩
  · show comp < 256 ^ 1; omega
  · show points.length < 256 ^ 1; omega
  · show q.level < 256 ^ 2; have := h2 q hq; omega
  · show q.volume < 256 ^ 2; have := h2 q hq; omega

theorem strapRead (comp : Nat) : Statement (.strapRead comp) := by
  intro h
  change (fourOk comp) = true at h
  have := fourOk_le (n := comp) (by simp_all)
  intro p hp
  change p ∈ [(comp, 1)] at hp
  simp only [List.mem_cons, List.not_mem_nil, or_false] at hp
  obtain rfl := hp
  simp only [fits]
  have hc := constants
  omega

theorem gauge (comp : Nat) : Statement (.gauge comp) := by
  intro h
  change (fourOk comp) = true at h
  have := fourOk_le (n := comp) (by simp_all)
  intro p hp
  change p ∈ [(comp, 1)] at hp
  simp only [List.mem_cons, List.not_mem_nil, or_false] at hp
  obtain rfl := hp
  simp only [fits]
  have hc := constants
  omega

theorem authoriseManual (hose : Nat) (machine : Nat) (tank : TankKind) (preset : Option Nat) : Statement (.authoriseManual hose machine tank preset) := by
  intro h
  change (hoseOk hose && inRange 1 999999 machine && inRange 1 20000 (preset.getD 1)) = true at h
  simp only [Bool.and_eq_true, inRange_iff] at h
  obtain ⟨⟨h0, h1⟩, h2⟩ := h
  have h3 := hoseOk_le h0
  intro p hp
  change p ∈ (hose, 1) :: (machine, 4) :: preset.toList.map (fun n => (n, 2)) at hp
  simp only [List.mem_cons, List.mem_map, Option.mem_toList] at hp
  rcases hp with rfl | rfl | ⟨n, hn, rfl⟩
  · show hose < 256 ^ 1; omega
  · show machine < 256 ^ 4; omega
  · simp only [hn, Option.getD] at h2
    show n < 256 ^ 2; omega

theorem referReplyAccept (hose : Nat) (account : Nat) (grades : GradeSet) (limit : Nat) : Statement (.referReplyAccept hose account grades limit) := by
  intro h
  change (hoseOk hose && accountSlotOk account && permittedSet grades && inRange 1 20000 limit) = true at h
  have := hoseOk_le (n := hose) (by simp_all)
  simp only [accountSlotOk_iff, inRange_iff, Bool.and_eq_true] at h
  intro p hp
  change p ∈ [(hose, 1), (account, 1), (limit, 2)] at hp
  simp only [List.mem_cons, List.not_mem_nil, or_false] at hp
  rcases hp with rfl | rfl | rfl <;> (simp only [fits]; have hc := constants; omega)

theorem referReplyRefuse (hose : Nat) : Statement (.referReplyRefuse hose) := by
  intro h
  change (hoseOk hose) = true at h
  have := hoseOk_le (n := hose) (by simp_all)
  intro p hp
  change p ∈ [(hose, 1)] at hp
  simp only [List.mem_cons, List.not_mem_nil, or_false] at hp
  obtain rfl := hp
  simp only [fits]
  have hc := constants
  omega

theorem referReplyRecheck (hose : Nat) : Statement (.referReplyRecheck hose) := by
  intro h
  change (hoseOk hose) = true at h
  have := hoseOk_le (n := hose) (by simp_all)
  intro p hp
  change p ∈ [(hose, 1)] at hp
  simp only [List.mem_cons, List.not_mem_nil, or_false] at hp
  obtain rfl := hp
  simp only [fits]
  have hc := constants
  omega

theorem hoseSetup (hose : Nat) (f : HoseSetupFields) : Statement (.hoseSetup hose f) := by
  intro h
  change ((hoseOf hose).any (fun id => (setupOf id f).isSome)) = true at h
  simp only [Option.any_eq_true] at h
  obtain ⟨id, hid, hs⟩ := h
  have h0 := hoseOk_le (n := hose) (by simp [hoseOk, hid])
  simp only [setupOf] at hs
  split at hs
  · simp at hs
  · rename_i cs hcs
    split at hs
    · rename_i hr
      simp only [Bool.and_eq_true, inRange_iff, decide_eq_true_eq] at hr
      have hp4 : f.preference.length ≤ 4 ∧ ∀ n ∈ f.preference, n ≤ 4 := preference_le hcs
      intro p hp
      change p ∈ (hose, 1) :: (f.preference.length, 1) :: f.preference.map (fun n => (n, 1)) ++ setupWidths f at hp
      simp only [List.cons_append, List.mem_cons, List.mem_append, List.mem_map] at hp
      rcases hp with rfl | rfl | ⟨n, hn, rfl⟩ | hp
      · show hose < 256 ^ 1; omega
      · show f.preference.length < 256 ^ 1; omega
      · show n < 256 ^ 1; have := hp4.2 n hn; omega
      · simp only [setupWidths, List.mem_cons, List.not_mem_nil, or_false] at hp
        rcases hp with rfl | rfl | rfl | rfl | rfl | rfl | rfl | rfl | rfl | rfl | rfl | rfl <;>
          (simp only [fits]; have hc := constants; omega)
    · simp at hs

theorem hoseRead (hose : Nat) : Statement (.hoseRead hose) := by
  intro h
  change (hoseOk hose) = true at h
  have := hoseOk_le (n := hose) (by simp_all)
  intro p hp
  change p ∈ [(hose, 1)] at hp
  simp only [List.mem_cons, List.not_mem_nil, or_false] at hp
  obtain rfl := hp
  simp only [fits]
  have hc := constants
  omega

theorem hoseService (hose : Nat) (target : ServiceTarget) : Statement (.hoseService hose target) := by
  intro h
  change (hoseOk hose) = true at h
  have := hoseOk_le (n := hose) (by simp_all)
  intro p hp
  change p ∈ [(hose, 1)] at hp
  simp only [List.mem_cons, List.not_mem_nil, or_false] at hp
  obtain rfl := hp
  simp only [fits]
  have hc := constants
  omega

theorem fieldStatus : Statement .fieldStatus := by
  intro _ p hp
  change p ∈ ([] : List (Nat × Nat)) at hp
  simp at hp

theorem rewind (hose : Nat) : Statement (.rewind hose) := by
  intro h
  change (hoseOk hose) = true at h
  have := hoseOk_le (n := hose) (by simp_all)
  intro p hp
  change p ∈ [(hose, 1)] at hp
  simp only [List.mem_cons, List.not_mem_nil, or_false] at hp
  obtain rfl := hp
  simp only [fits]
  have hc := constants
  omega

theorem hoseStop (hose : Nat) : Statement (.hoseStop hose) := by
  intro h
  change (hoseOk hose) = true at h
  have := hoseOk_le (n := hose) (by simp_all)
  intro p hp
  change p ∈ [(hose, 1)] at hp
  simp only [List.mem_cons, List.not_mem_nil, or_false] at hp
  obtain rfl := hp
  simp only [fits]
  have hc := constants
  omega

theorem collect (hose : Nat) (number : Nat) : Statement (.collect hose number) := by
  intro h
  change (hoseOk hose && inRange 1 65535 number) = true at h
  have := hoseOk_le (n := hose) (by simp_all)
  simp only [inRange_iff, Bool.and_eq_true] at h
  intro p hp
  change p ∈ [(hose, 1), (number, 2)] at hp
  simp only [List.mem_cons, List.not_mem_nil, or_false] at hp
  rcases hp with rfl | rfl <;> (simp only [fits]; have hc := constants; omega)

theorem sessionRead (hose : Nat) : Statement (.sessionRead hose) := by
  intro h
  change (hoseOk hose) = true at h
  have := hoseOk_le (n := hose) (by simp_all)
  intro p hp
  change p ∈ [(hose, 1)] at hp
  simp only [List.mem_cons, List.not_mem_nil, or_false] at hp
  obtain rfl := hp
  simp only [fits]
  have hc := constants
  omega

theorem meterRead (meter : Nat) : Statement (.meterRead meter) := by
  intro h
  change (fourOk meter) = true at h
  have := fourOk_le (n := meter) (by simp_all)
  intro p hp
  change p ∈ [(meter, 1)] at hp
  simp only [List.mem_cons, List.not_mem_nil, or_false] at hp
  obtain rfl := hp
  simp only [fits]
  have hc := constants
  omega

theorem metrologyWrite (meter : Nat) (pulseVolume : Nat) (points : List LinPoint) : Statement (.metrologyWrite meter pulseVolume points) := by
  intro h
  change (fourOk meter && meterFieldsOk pulseVolume points) = true at h
  simp only [Bool.and_eq_true, meterFieldsOk, linPointsOk, List.all_eq_true, inRange_iff, decide_eq_true_eq] at h
  obtain ⟨h0, h1, ⟨h2, h3⟩, -⟩ := h
  have h4 := fourOk_le h0
  intro p hp
  change p ∈ (meter, 1) :: (pulseVolume, 4) :: (points.length, 1) :: points.flatMap (fun p => [(p.flow, 2), (p.factor, 4)]) at hp
  simp only [List.mem_cons, List.mem_flatMap, List.not_mem_nil, or_false] at hp
  rcases hp with rfl | rfl | rfl | ⟨q, hq, rfl | rfl⟩
  · show meter < 256 ^ 1; omega
  · show pulseVolume < 256 ^ 4; omega
  · show points.length < 256 ^ 1; omega
  · show q.flow < 256 ^ 2; have := h3 q hq; omega
  · show q.factor < 256 ^ 4; have := h3 q hq; omega

theorem gradeCoefficientWrite (grade : Grade) (alpha : Nat) (fallback : Int) : Statement (.gradeCoefficientWrite grade alpha fallback) := by
  intro h
  change (decide (alpha ≤ 2000) && decide (-400 ≤ fallback) && decide (fallback ≤ 850)) = true at h
  simp only [decide_eq_true_eq, Bool.and_eq_true] at h
  intro p hp
  change p ∈ [(alpha, 2)] at hp
  simp only [List.mem_cons, List.not_mem_nil, or_false] at hp
  obtain rfl := hp
  simp only [fits]
  have hc := constants
  omega

theorem storeWriteComplete : Statement .storeWriteComplete := by
  intro _ p hp
  change p ∈ ([] : List (Nat × Nat)) at hp
  simp at hp

theorem metrologyRead (meter : Nat) : Statement (.metrologyRead meter) := by
  intro h
  change (fourOk meter) = true at h
  have := fourOk_le (n := meter) (by simp_all)
  intro p hp
  change p ∈ [(meter, 1)] at hp
  simp only [List.mem_cons, List.not_mem_nil, or_false] at hp
  obtain rfl := hp
  simp only [fits]
  have hc := constants
  omega

theorem proveStart (hose : Nat) (flow : Nat) (nominal : Nat) : Statement (.proveStart hose flow nominal) := by
  intro h
  change (hoseOk hose && inRange 5 1000 flow && inRange 20 2000 nominal) = true at h
  have := hoseOk_le (n := hose) (by simp_all)
  simp only [inRange_iff, Bool.and_eq_true] at h
  intro p hp
  change p ∈ [(hose, 1), (flow, 2), (nominal, 2)] at hp
  simp only [List.mem_cons, List.not_mem_nil, or_false] at hp
  rcases hp with rfl | rfl | rfl <;> (simp only [fits]; have hc := constants; omega)

theorem proveResult (hose : Nat) (observed : Nat) : Statement (.proveResult hose observed) := by
  intro h
  change (hoseOk hose && decide (observed ≤ 4000000)) = true at h
  have := hoseOk_le (n := hose) (by simp_all)
  simp only [decide_eq_true_eq, Bool.and_eq_true] at h
  intro p hp
  change p ∈ [(hose, 1), (observed, 4)] at hp
  simp only [List.mem_cons, List.not_mem_nil, or_false] at hp
  rcases hp with rfl | rfl <;> (simp only [fits]; have hc := constants; omega)

theorem proveAbort (hose : Nat) : Statement (.proveAbort hose) := by
  intro h
  change (hoseOk hose) = true at h
  have := hoseOk_le (n := hose) (by simp_all)
  intro p hp
  change p ∈ [(hose, 1)] at hp
  simp only [List.mem_cons, List.not_mem_nil, or_false] at hp
  obtain rfl := hp
  simp only [fits]
  have hc := constants
  omega

theorem proveRead (hose : Nat) : Statement (.proveRead hose) := by
  intro h
  change (hoseOk hose) = true at h
  have := hoseOk_le (n := hose) (by simp_all)
  intro p hp
  change p ∈ [(hose, 1)] at hp
  simp only [List.mem_cons, List.not_mem_nil, or_false] at hp
  obtain rfl := hp
  simp only [fits]
  have hc := constants
  omega

theorem loadCreate (comp : Nat) (grade : Grade) (expected : Nat) (docket : List Byte) : Statement (.loadCreate comp grade expected docket) := by
  intro h
  change (fourOk comp && inRange 1 20000 expected && docketOk docket) = true at h
  simp only [docketOk, Bool.and_eq_true, inRange_iff, beq_iff_eq] at h
  obtain ⟨⟨h0, h1⟩, h2, -⟩ := h
  have h3 := fourOk_le h0
  have h4 : docket.length < 256 := by omega
  intro p hp
  change p ∈ [(comp, 1), (expected, 2), (docket.length, 1)] at hp
  simp only [List.mem_cons, List.not_mem_nil, or_false] at hp
  rcases hp with rfl | rfl | rfl <;> (simp only [fits]; omega)

theorem loadArm (slot : Nat) : Statement (.loadArm slot) := by
  intro h
  change (loadSlotOk slot) = true at h
  simp only [loadSlotOk_iff] at h
  intro p hp
  change p ∈ [(slot, 1)] at hp
  simp only [List.mem_cons, List.not_mem_nil, or_false] at hp
  obtain rfl := hp
  simp only [fits]
  have hc := constants
  omega

theorem loadCancel (slot : Nat) : Statement (.loadCancel slot) := by
  intro h
  change (loadSlotOk slot) = true at h
  simp only [loadSlotOk_iff] at h
  intro p hp
  change p ∈ [(slot, 1)] at hp
  simp only [List.mem_cons, List.not_mem_nil, or_false] at hp
  obtain rfl := hp
  simp only [fits]
  have hc := constants
  omega

theorem loadAbort (slot : Nat) : Statement (.loadAbort slot) := by
  intro h
  change (loadSlotOk slot) = true at h
  simp only [loadSlotOk_iff] at h
  intro p hp
  change p ∈ [(slot, 1)] at hp
  simp only [List.mem_cons, List.not_mem_nil, or_false] at hp
  obtain rfl := hp
  simp only [fits]
  have hc := constants
  omega

theorem loadRead (slot : Nat) : Statement (.loadRead slot) := by
  intro h
  change (loadSlotOk slot) = true at h
  simp only [loadSlotOk_iff] at h
  intro p hp
  change p ∈ [(slot, 1)] at hp
  simp only [List.mem_cons, List.not_mem_nil, or_false] at hp
  obtain rfl := hp
  simp only [fits]
  have hc := constants
  omega

theorem loadRetire (slot : Nat) : Statement (.loadRetire slot) := by
  intro h
  change (loadSlotOk slot) = true at h
  simp only [loadSlotOk_iff] at h
  intro p hp
  change p ∈ [(slot, 1)] at hp
  simp only [List.mem_cons, List.not_mem_nil, or_false] at hp
  obtain rfl := hp
  simp only [fits]
  have hc := constants
  omega

theorem inletSetup (idle : Nat) (arm : Nat) (settle : Nat) (ullage : Nat) : Statement (.inletSetup idle arm settle ullage) := by
  intro h
  change (inletSetupOk idle arm settle ullage) = true at h
  simp only [inletSetupOk, inRange_iff, Bool.and_eq_true] at h
  intro p hp
  change p ∈ [(idle, 2), (arm, 1), (settle, 2), (ullage, 1)] at hp
  simp only [List.mem_cons, List.not_mem_nil, or_false] at hp
  rcases hp with rfl | rfl | rfl | rfl <;> (simp only [fits]; have hc := constants; omega)

theorem inletRead : Statement .inletRead := by
  intro _ p hp
  change p ∈ ([] : List (Nat × Nat)) at hp
  simp at hp

theorem windowSet (length : Nat) : Statement (.windowSet length) := by
  intro _ p hp
  change p ∈ ([] : List (Nat × Nat)) at hp
  simp at hp

theorem clockSet (count : Nat) : Statement (.clockSet count) := by
  intro h
  change (decide (count < Config.clockModulus)) = true at h
  simp only [decide_eq_true_eq] at h
  intro p hp
  change p ∈ [(count, 4)] at hp
  simp only [List.mem_cons, List.not_mem_nil, or_false] at hp
  obtain rfl := hp
  simp only [fits]
  have hc := constants
  omega

theorem rolloverSet (second : Nat) : Statement (.rolloverSet second) := by
  intro h
  change (decide (second < Config.dayLength)) = true at h
  simp only [decide_eq_true_eq] at h
  intro p hp
  change p ∈ [(second, 4)] at hp
  simp only [List.mem_cons, List.not_mem_nil, or_false] at hp
  obtain rfl := hp
  simp only [fits]
  have hc := constants
  omega

theorem clockRead : Statement .clockRead := by
  intro _ p hp
  change p ∈ ([] : List (Nat × Nat)) at hp
  simp at hp

theorem faultRead (bank : Nat) : Statement (.faultRead bank) := by
  intro h
  change ((bankOf bank).isSome) = true at h
  have := bankOf_le (n := bank) (by exact h)
  intro p hp
  change p ∈ [(bank, 1)] at hp
  simp only [List.mem_cons, List.not_mem_nil, or_false] at hp
  obtain rfl := hp
  simp only [fits]
  have hc := constants
  omega

theorem faultControl (bank : Nat) (enable : Nat) : Statement (.faultControl bank enable) := by
  intro h
  have key : (bankOf bank).isSome = true ∧ enable < 32 := by
    change (match bankOf bank with
      | none => false
      | some (.reader _) => decide (enable < 4)
      | some (.hose _) => decide (enable < 32)
      | some (.meter _) => decide (enable < 8)
      | some .gauge => decide (enable < 4)
      | some .inlet => decide (enable < 4)
      | some .table => decide (enable < 2)) = true at h
    split at h <;> simp at h <;> simp_all <;> omega
  have hb := bankOf_le key.1
  have he := key.2
  intro p hp
  change p ∈ [(bank, 1), (enable, 1)] at hp
  simp only [List.mem_cons, List.not_mem_nil, or_false] at hp
  rcases hp with rfl | rfl <;> (simp only [fits]; have hc := constants; omega)

theorem faultClear (bank : Nat) : Statement (.faultClear bank) := by
  intro h
  change ((bankOf bank).isSome) = true at h
  have := bankOf_le (n := bank) (by exact h)
  intro p hp
  change p ∈ [(bank, 1)] at hp
  simp only [List.mem_cons, List.not_mem_nil, or_false] at hp
  obtain rfl := hp
  simp only [fits]
  have hc := constants
  omega

theorem noticeNext : Statement .noticeNext := by
  intro _ p hp
  change p ∈ ([] : List (Nat × Nat)) at hp
  simp at hp

theorem noticeMask (mask : Nat) : Statement (.noticeMask mask) := by
  intro h
  change (decide (mask < 256)) = true at h
  simp only [decide_eq_true_eq] at h
  intro p hp
  change p ∈ [(mask, 1)] at hp
  simp only [List.mem_cons, List.not_mem_nil, or_false] at hp
  obtain rfl := hp
  simp only [fits]
  have hc := constants
  omega

theorem restart : Statement .restart := by
  intro _ p hp
  change p ∈ ([] : List (Nat × Nat)) at hp
  simp at hp

theorem identify : Statement .identify := by
  intro _ p hp
  change p ∈ ([] : List (Nat × Nat)) at hp
  simp at hp

theorem commandTransaction (opening : Byte) (frame : List Byte) : Statement (.commandTransaction opening frame) := by
  intro _ p hp
  change p ∈ ([] : List (Nat × Nat)) at hp
  simp at hp

theorem readTransaction (opening : Byte) (count : Nat) : Statement (.readTransaction opening count) := by
  intro _ p hp
  change p ∈ ([] : List (Nat × Nat)) at hp
  simp at hp

theorem linkReset : Statement .linkReset := by
  intro _ p hp
  change p ∈ ([] : List (Nat × Nat)) at hp
  simp at hp

theorem resetPin : Statement .resetPin := by
  intro _ p hp
  change p ∈ ([] : List (Nat × Nat)) at hp
  simp at hp

theorem powerUp : Statement .powerUp := by
  intro _ p hp
  change p ∈ ([] : List (Nat × Nat)) at hp
  simp at hp

theorem retentionSupplyLoss : Statement .retentionSupplyLoss := by
  intro _ p hp
  change p ∈ ([] : List (Nat × Nat)) at hp
  simp at hp

theorem powerFailWarning (asserted : Bool) : Statement (.powerFailWarning asserted) := by
  intro _ p hp
  change p ∈ ([] : List (Nat × Nat)) at hp
  simp at hp

theorem powerFailHoldOffExpiry : Statement .powerFailHoldOffExpiry := by
  intro _ p hp
  change p ∈ ([] : List (Nat × Nat)) at hp
  simp at hp

theorem emergencyStop (asserted : Bool) : Statement (.emergencyStop asserted) := by
  intro _ p hp
  change p ∈ ([] : List (Nat × Nat)) at hp
  simp at hp

theorem parkBrake (applied : Bool) : Statement (.parkBrake applied) := by
  intro _ p hp
  change p ∈ ([] : List (Nat × Nat)) at hp
  simp at hp

theorem nozzleSwitch (hose : HoseId) (offHook : Bool) : Statement (.nozzleSwitch hose offHook) := by
  intro _ p hp
  change p ∈ ([] : List (Nat × Nat)) at hp
  simp at hp

theorem startInput (hose : HoseId) (asserted : Bool) : Statement (.startInput hose asserted) := by
  intro _ p hp
  change p ∈ ([] : List (Nat × Nat)) at hp
  simp at hp

theorem stowSwitch (hose : HoseId) (closed : Bool) : Statement (.stowSwitch hose closed) := by
  intro _ p hp
  change p ∈ ([] : List (Nat × Nat)) at hp
  simp at hp

theorem inletCoupling (coupled : Bool) : Statement (.inletCoupling coupled) := by
  intro _ p hp
  change p ∈ ([] : List (Nat × Nat)) at hp
  simp at hp

theorem highLevelSwitch (comp : CompId) (high : Bool) : Statement (.highLevelSwitch comp high) := by
  intro _ p hp
  change p ∈ ([] : List (Nat × Nat)) at hp
  simp at hp

theorem sealSwitch (closed : Bool) : Statement (.sealSwitch closed) := by
  intro _ p hp
  change p ∈ ([] : List (Nat × Nat)) at hp
  simp at hp

theorem receiverCharacter (port : HoseId) (data : Byte) (tail : CharacterTail) :
    Statement (.receiverCharacter port data tail) := by
  intro _ p hp
  change p ∈ ([] : List (Nat × Nat)) at hp
  simp at hp

theorem lineBreak (line : HeldLine) : Statement (.lineBreak line) := by
  intro _ p hp
  change p ∈ ([] : List (Nat × Nat)) at hp
  simp at hp

theorem idleEvent (port : HoseId) : Statement (.idleEvent port) := by
  intro _ p hp
  change p ∈ ([] : List (Nat × Nat)) at hp
  simp at hp

theorem fifoEntryTaken (port : HoseId) : Statement (.fifoEntryTaken port) := by
  intro _ p hp
  change p ∈ ([] : List (Nat × Nat)) at hp
  simp at hp

theorem silenceTimerExpiry (port : HoseId) : Statement (.silenceTimerExpiry port) := by
  intro _ p hp
  change p ∈ ([] : List (Nat × Nat)) at hp
  simp at hp

theorem graceExpiry (port : HoseId) : Statement (.graceExpiry port) := by
  intro _ p hp
  change p ∈ ([] : List (Nat × Nat)) at hp
  simp at hp

theorem tagPresent (hose : HoseId) (tag : Nat) : Statement (.tagPresent hose tag) := by
  intro h
  change (tagOk tag) = true at h
  simp only [tagOk_iff] at h
  intro p hp
  change p ∈ [(tag, 6)] at hp
  simp only [List.mem_cons, List.not_mem_nil, or_false] at hp
  obtain rfl := hp
  simp only [fits]
  have hc := constants
  omega

theorem tagLost (hose : HoseId) (tag : Nat) : Statement (.tagLost hose tag) := by
  intro h
  change (tagOk tag) = true at h
  simp only [tagOk_iff] at h
  intro p hp
  change p ∈ [(tag, 6)] at hp
  simp only [List.mem_cons, List.not_mem_nil, or_false] at hp
  obtain rfl := hp
  simp only [fits]
  have hc := constants
  omega

theorem tagChanged (hose : HoseId) (old : Nat) (new : Nat) : Statement (.tagChanged hose old new) := by
  intro h
  change (tagOk old && tagOk new && old != new) = true at h
  simp only [tagOk_iff, Bool.and_eq_true] at h
  intro p hp
  change p ∈ [(old, 6), (new, 6)] at hp
  simp only [List.mem_cons, List.not_mem_nil, or_false] at hp
  rcases hp with rfl | rfl <;> (simp only [fits]; have hc := constants; omega)

theorem referDeadlineExpiry (hose : HoseId) : Statement (.referDeadlineExpiry hose) := by
  intro _ p hp
  change p ∈ ([] : List (Nat × Nat)) at hp
  simp at hp

theorem readyTimerExpiry (hose : HoseId) : Statement (.readyTimerExpiry hose) := by
  intro _ p hp
  change p ∈ ([] : List (Nat × Nat)) at hp
  simp at hp

theorem resumeTimerExpiry (hose : HoseId) : Statement (.resumeTimerExpiry hose) := by
  intro _ p hp
  change p ∈ ([] : List (Nat × Nat)) at hp
  simp at hp

theorem settleTimerExpiry (hose : HoseId) : Statement (.settleTimerExpiry hose) := by
  intro _ p hp
  change p ∈ ([] : List (Nat × Nat)) at hp
  simp at hp

theorem rewindTimerExpiry (hose : HoseId) : Statement (.rewindTimerExpiry hose) := by
  intro _ p hp
  change p ∈ ([] : List (Nat × Nat)) at hp
  simp at hp

theorem proveReadyTimeout (hose : HoseId) : Statement (.proveReadyTimeout hose) := by
  intro _ p hp
  change p ∈ ([] : List (Nat × Nat)) at hp
  simp at hp

theorem proveSettleTimerExpiry (hose : HoseId) : Statement (.proveSettleTimerExpiry hose) := by
  intro _ p hp
  change p ∈ ([] : List (Nat × Nat)) at hp
  simp at hp

theorem armTimerExpiry : Statement .armTimerExpiry := by
  intro _ p hp
  change p ∈ ([] : List (Nat × Nat)) at hp
  simp at hp

theorem inletIdleTimerExpiry : Statement .inletIdleTimerExpiry := by
  intro _ p hp
  change p ∈ ([] : List (Nat × Nat)) at hp
  simp at hp

theorem loadSettleTimerExpiry : Statement .loadSettleTimerExpiry := by
  intro _ p hp
  change p ∈ ([] : List (Nat × Nat)) at hp
  simp at hp

theorem windowExpiry (temperatures : ByFour Int) : Statement (.windowExpiry temperatures) := by
  intro _ p hp
  change p ∈ ([] : List (Nat × Nat)) at hp
  simp at hp

theorem forwardPulse (meter : MeterId) (capture : Nat) : Statement (.forwardPulse meter capture) := by
  intro h
  change (decide (capture < Config.clockModulus)) = true at h
  simp only [decide_eq_true_eq] at h
  intro p hp
  change p ∈ [(capture, 4)] at hp
  simp only [List.mem_cons, List.not_mem_nil, or_false] at hp
  obtain rfl := hp
  simp only [fits]
  have hc := constants
  omega

theorem reversePulse (meter : MeterId) : Statement (.reversePulse meter) := by
  intro _ p hp
  change p ∈ ([] : List (Nat × Nat)) at hp
  simp at hp

theorem illegalTransition (meter : MeterId) : Statement (.illegalTransition meter) := by
  intro _ p hp
  change p ∈ ([] : List (Nat × Nat)) at hp
  simp at hp

theorem pwmPeriodStart : Statement .pwmPeriodStart := by
  intro _ p hp
  change p ∈ ([] : List (Nat × Nat)) at hp
  simp at hp

theorem probeSample (samples : ByFour RawSample) : Statement (.probeSample samples) := by
  intro h
  change (allFour sampleOk samples) = true at h
  simp only [allFour, sampleOk, Bool.and_eq_true, decide_eq_true_eq] at h
  intro p hp
  change p ∈ [(samples.one.level, 2), (samples.two.level, 2), (samples.three.level, 2), (samples.four.level, 2)] at hp
  simp only [List.mem_cons, List.not_mem_nil, or_false] at hp
  rcases hp with rfl | rfl | rfl | rfl <;> (simp only [fits]; have hc := constants; omega)

theorem siteClockSecond : Statement .siteClockSecond := by
  intro _ p hp
  change p ∈ ([] : List (Nat × Nat)) at hp
  simp at hp

theorem pulserQuarterStep (meter : MeterId) (forward : Bool) : Statement (.pulserQuarterStep meter forward) := by
  intro _ p hp
  change p ∈ ([] : List (Nat × Nat)) at hp
  simp at hp

theorem lineTemperatureValidityChange (hose : HoseId) (reading : Int) : Statement (.lineTemperatureValidityChange hose reading) := by
  intro _ p hp
  change p ∈ ([] : List (Nat × Nat)) at hp
  simp at hp

theorem mainPowerLoss : Statement .mainPowerLoss := by
  intro _ p hp
  change p ∈ ([] : List (Nat × Nat)) at hp
  simp at hp

end Sys2Proof.Laws.FieldsFit
end

