-- ==== Sys2Proof/Laws/State.lean ====
section
/-! SUPPORT. One lemma per field per update: what each update of the state leaves in every field. -/

namespace Sys2Proof.Machine

/-! ### setHose -/

@[simp] theorem setHose_machines (h : HoseId) (x : Hose) (s : State) :
    (setHose h x s).machines = s.machines := rfl
@[simp] theorem setHose_tagIndex (h : HoseId) (x : Hose) (s : State) :
    (setHose h x s).tagIndex = s.tagIndex := rfl
@[simp] theorem setHose_ranges (h : HoseId) (x : Hose) (s : State) :
    (setHose h x s).ranges = s.ranges := rfl
@[simp] theorem setHose_defaultPolicy (h : HoseId) (x : Hose) (s : State) :
    (setHose h x s).defaultPolicy = s.defaultPolicy := rfl
@[simp] theorem setHose_readers (h : HoseId) (x : Hose) (s : State) :
    (setHose h x s).readers = s.readers := rfl
@[simp] theorem setHose_accounts (h : HoseId) (x : Hose) (s : State) :
    (setHose h x s).accounts = s.accounts := rfl
@[simp] theorem setHose_prices (h : HoseId) (x : Hose) (s : State) :
    (setHose h x s).prices = s.prices := rfl
@[simp] theorem setHose_compartments (h : HoseId) (x : Hose) (s : State) :
    (setHose h x s).compartments = s.compartments := rfl
@[simp] theorem setHose_hoses (h : HoseId) (x : Hose) (s : State) :
    (setHose h x s).hoses = s.hoses.set h x := rfl
@[simp] theorem setHose_field (h : HoseId) (x : Hose) (s : State) :
    (setHose h x s).field = s.field := rfl
@[simp] theorem setHose_drivePermit (h : HoseId) (x : Hose) (s : State) :
    (setHose h x s).drivePermit = s.drivePermit := rfl
@[simp] theorem setHose_channels (h : HoseId) (x : Hose) (s : State) :
    (setHose h x s).channels = s.channels := rfl
@[simp] theorem setHose_store (h : HoseId) (x : Hose) (s : State) :
    (setHose h x s).store = s.store := rfl
@[simp] theorem setHose_loads (h : HoseId) (x : Hose) (s : State) :
    (setHose h x s).loads = s.loads := rfl
@[simp] theorem setHose_timebase (h : HoseId) (x : Hose) (s : State) :
    (setHose h x s).timebase = s.timebase := rfl
@[simp] theorem setHose_supply (h : HoseId) (x : Hose) (s : State) :
    (setHose h x s).supply = s.supply := rfl
@[simp] theorem setHose_banks (h : HoseId) (x : Hose) (s : State) :
    (setHose h x s).banks = s.banks := rfl
@[simp] theorem setHose_notices (h : HoseId) (x : Hose) (s : State) :
    (setHose h x s).notices = s.notices := rfl
@[simp] theorem setHose_noticeMask (h : HoseId) (x : Hose) (s : State) :
    (setHose h x s).noticeMask = s.noticeMask := rfl
@[simp] theorem setHose_port (h : HoseId) (x : Hose) (s : State) :
    (setHose h x s).port = s.port := rfl
@[simp] theorem setHose_pending (h : HoseId) (x : Hose) (s : State) :
    (setHose h x s).pending = s.pending := rfl

/-! ### setReader -/

@[simp] theorem setReader_machines (h : HoseId) (x : Reader) (s : State) :
    (setReader h x s).machines = s.machines := rfl
@[simp] theorem setReader_tagIndex (h : HoseId) (x : Reader) (s : State) :
    (setReader h x s).tagIndex = s.tagIndex := rfl
@[simp] theorem setReader_ranges (h : HoseId) (x : Reader) (s : State) :
    (setReader h x s).ranges = s.ranges := rfl
@[simp] theorem setReader_defaultPolicy (h : HoseId) (x : Reader) (s : State) :
    (setReader h x s).defaultPolicy = s.defaultPolicy := rfl
@[simp] theorem setReader_readers (h : HoseId) (x : Reader) (s : State) :
    (setReader h x s).readers = s.readers.set h x := rfl
@[simp] theorem setReader_accounts (h : HoseId) (x : Reader) (s : State) :
    (setReader h x s).accounts = s.accounts := rfl
@[simp] theorem setReader_prices (h : HoseId) (x : Reader) (s : State) :
    (setReader h x s).prices = s.prices := rfl
@[simp] theorem setReader_compartments (h : HoseId) (x : Reader) (s : State) :
    (setReader h x s).compartments = s.compartments := rfl
@[simp] theorem setReader_hoses (h : HoseId) (x : Reader) (s : State) :
    (setReader h x s).hoses = s.hoses := rfl
@[simp] theorem setReader_field (h : HoseId) (x : Reader) (s : State) :
    (setReader h x s).field = s.field := rfl
@[simp] theorem setReader_drivePermit (h : HoseId) (x : Reader) (s : State) :
    (setReader h x s).drivePermit = s.drivePermit := rfl
@[simp] theorem setReader_channels (h : HoseId) (x : Reader) (s : State) :
    (setReader h x s).channels = s.channels := rfl
@[simp] theorem setReader_store (h : HoseId) (x : Reader) (s : State) :
    (setReader h x s).store = s.store := rfl
@[simp] theorem setReader_loads (h : HoseId) (x : Reader) (s : State) :
    (setReader h x s).loads = s.loads := rfl
@[simp] theorem setReader_timebase (h : HoseId) (x : Reader) (s : State) :
    (setReader h x s).timebase = s.timebase := rfl
@[simp] theorem setReader_supply (h : HoseId) (x : Reader) (s : State) :
    (setReader h x s).supply = s.supply := rfl
@[simp] theorem setReader_banks (h : HoseId) (x : Reader) (s : State) :
    (setReader h x s).banks = s.banks := rfl
@[simp] theorem setReader_notices (h : HoseId) (x : Reader) (s : State) :
    (setReader h x s).notices = s.notices := rfl
@[simp] theorem setReader_noticeMask (h : HoseId) (x : Reader) (s : State) :
    (setReader h x s).noticeMask = s.noticeMask := rfl
@[simp] theorem setReader_port (h : HoseId) (x : Reader) (s : State) :
    (setReader h x s).port = s.port := rfl
@[simp] theorem setReader_pending (h : HoseId) (x : Reader) (s : State) :
    (setReader h x s).pending = s.pending := rfl

/-! ### setComp -/

@[simp] theorem setComp_machines (c : CompId) (x : Compartment) (s : State) :
    (setComp c x s).machines = s.machines := rfl
@[simp] theorem setComp_tagIndex (c : CompId) (x : Compartment) (s : State) :
    (setComp c x s).tagIndex = s.tagIndex := rfl
@[simp] theorem setComp_ranges (c : CompId) (x : Compartment) (s : State) :
    (setComp c x s).ranges = s.ranges := rfl
@[simp] theorem setComp_defaultPolicy (c : CompId) (x : Compartment) (s : State) :
    (setComp c x s).defaultPolicy = s.defaultPolicy := rfl
@[simp] theorem setComp_readers (c : CompId) (x : Compartment) (s : State) :
    (setComp c x s).readers = s.readers := rfl
@[simp] theorem setComp_accounts (c : CompId) (x : Compartment) (s : State) :
    (setComp c x s).accounts = s.accounts := rfl
@[simp] theorem setComp_prices (c : CompId) (x : Compartment) (s : State) :
    (setComp c x s).prices = s.prices := rfl
@[simp] theorem setComp_compartments (c : CompId) (x : Compartment) (s : State) :
    (setComp c x s).compartments = s.compartments.set c x := rfl
@[simp] theorem setComp_hoses (c : CompId) (x : Compartment) (s : State) :
    (setComp c x s).hoses = s.hoses := rfl
@[simp] theorem setComp_field (c : CompId) (x : Compartment) (s : State) :
    (setComp c x s).field = s.field := rfl
@[simp] theorem setComp_drivePermit (c : CompId) (x : Compartment) (s : State) :
    (setComp c x s).drivePermit = s.drivePermit := rfl
@[simp] theorem setComp_channels (c : CompId) (x : Compartment) (s : State) :
    (setComp c x s).channels = s.channels := rfl
@[simp] theorem setComp_store (c : CompId) (x : Compartment) (s : State) :
    (setComp c x s).store = s.store := rfl
@[simp] theorem setComp_loads (c : CompId) (x : Compartment) (s : State) :
    (setComp c x s).loads = s.loads := rfl
@[simp] theorem setComp_timebase (c : CompId) (x : Compartment) (s : State) :
    (setComp c x s).timebase = s.timebase := rfl
@[simp] theorem setComp_supply (c : CompId) (x : Compartment) (s : State) :
    (setComp c x s).supply = s.supply := rfl
@[simp] theorem setComp_banks (c : CompId) (x : Compartment) (s : State) :
    (setComp c x s).banks = s.banks := rfl
@[simp] theorem setComp_notices (c : CompId) (x : Compartment) (s : State) :
    (setComp c x s).notices = s.notices := rfl
@[simp] theorem setComp_noticeMask (c : CompId) (x : Compartment) (s : State) :
    (setComp c x s).noticeMask = s.noticeMask := rfl
@[simp] theorem setComp_port (c : CompId) (x : Compartment) (s : State) :
    (setComp c x s).port = s.port := rfl
@[simp] theorem setComp_pending (c : CompId) (x : Compartment) (s : State) :
    (setComp c x s).pending = s.pending := rfl

/-! ### setChannel -/

@[simp] theorem setChannel_machines (m : MeterId) (x : Channel) (s : State) :
    (setChannel m x s).machines = s.machines := rfl
@[simp] theorem setChannel_tagIndex (m : MeterId) (x : Channel) (s : State) :
    (setChannel m x s).tagIndex = s.tagIndex := rfl
@[simp] theorem setChannel_ranges (m : MeterId) (x : Channel) (s : State) :
    (setChannel m x s).ranges = s.ranges := rfl
@[simp] theorem setChannel_defaultPolicy (m : MeterId) (x : Channel) (s : State) :
    (setChannel m x s).defaultPolicy = s.defaultPolicy := rfl
@[simp] theorem setChannel_readers (m : MeterId) (x : Channel) (s : State) :
    (setChannel m x s).readers = s.readers := rfl
@[simp] theorem setChannel_accounts (m : MeterId) (x : Channel) (s : State) :
    (setChannel m x s).accounts = s.accounts := rfl
@[simp] theorem setChannel_prices (m : MeterId) (x : Channel) (s : State) :
    (setChannel m x s).prices = s.prices := rfl
@[simp] theorem setChannel_compartments (m : MeterId) (x : Channel) (s : State) :
    (setChannel m x s).compartments = s.compartments := rfl
@[simp] theorem setChannel_hoses (m : MeterId) (x : Channel) (s : State) :
    (setChannel m x s).hoses = s.hoses := rfl
@[simp] theorem setChannel_field (m : MeterId) (x : Channel) (s : State) :
    (setChannel m x s).field = s.field := rfl
@[simp] theorem setChannel_drivePermit (m : MeterId) (x : Channel) (s : State) :
    (setChannel m x s).drivePermit = s.drivePermit := rfl
@[simp] theorem setChannel_channels (m : MeterId) (x : Channel) (s : State) :
    (setChannel m x s).channels = s.channels.set m x := rfl
@[simp] theorem setChannel_store (m : MeterId) (x : Channel) (s : State) :
    (setChannel m x s).store = s.store := rfl
@[simp] theorem setChannel_loads (m : MeterId) (x : Channel) (s : State) :
    (setChannel m x s).loads = s.loads := rfl
@[simp] theorem setChannel_timebase (m : MeterId) (x : Channel) (s : State) :
    (setChannel m x s).timebase = s.timebase := rfl
@[simp] theorem setChannel_supply (m : MeterId) (x : Channel) (s : State) :
    (setChannel m x s).supply = s.supply := rfl
@[simp] theorem setChannel_banks (m : MeterId) (x : Channel) (s : State) :
    (setChannel m x s).banks = s.banks := rfl
@[simp] theorem setChannel_notices (m : MeterId) (x : Channel) (s : State) :
    (setChannel m x s).notices = s.notices := rfl
@[simp] theorem setChannel_noticeMask (m : MeterId) (x : Channel) (s : State) :
    (setChannel m x s).noticeMask = s.noticeMask := rfl
@[simp] theorem setChannel_port (m : MeterId) (x : Channel) (s : State) :
    (setChannel m x s).port = s.port := rfl
@[simp] theorem setChannel_pending (m : MeterId) (x : Channel) (s : State) :
    (setChannel m x s).pending = s.pending := rfl

/-! ### setStore -/

@[simp] theorem setStore_machines (x : MetrologyStore) (s : State) :
    (setStore x s).machines = s.machines := rfl
@[simp] theorem setStore_tagIndex (x : MetrologyStore) (s : State) :
    (setStore x s).tagIndex = s.tagIndex := rfl
@[simp] theorem setStore_ranges (x : MetrologyStore) (s : State) :
    (setStore x s).ranges = s.ranges := rfl
@[simp] theorem setStore_defaultPolicy (x : MetrologyStore) (s : State) :
    (setStore x s).defaultPolicy = s.defaultPolicy := rfl
@[simp] theorem setStore_readers (x : MetrologyStore) (s : State) :
    (setStore x s).readers = s.readers := rfl
@[simp] theorem setStore_accounts (x : MetrologyStore) (s : State) :
    (setStore x s).accounts = s.accounts := rfl
@[simp] theorem setStore_prices (x : MetrologyStore) (s : State) :
    (setStore x s).prices = s.prices := rfl
@[simp] theorem setStore_compartments (x : MetrologyStore) (s : State) :
    (setStore x s).compartments = s.compartments := rfl
@[simp] theorem setStore_hoses (x : MetrologyStore) (s : State) :
    (setStore x s).hoses = s.hoses := rfl
@[simp] theorem setStore_field (x : MetrologyStore) (s : State) :
    (setStore x s).field = s.field := rfl
@[simp] theorem setStore_drivePermit (x : MetrologyStore) (s : State) :
    (setStore x s).drivePermit = s.drivePermit := rfl
@[simp] theorem setStore_channels (x : MetrologyStore) (s : State) :
    (setStore x s).channels = s.channels := rfl
@[simp] theorem setStore_store (x : MetrologyStore) (s : State) :
    (setStore x s).store = x := rfl
@[simp] theorem setStore_loads (x : MetrologyStore) (s : State) :
    (setStore x s).loads = s.loads := rfl
@[simp] theorem setStore_timebase (x : MetrologyStore) (s : State) :
    (setStore x s).timebase = s.timebase := rfl
@[simp] theorem setStore_supply (x : MetrologyStore) (s : State) :
    (setStore x s).supply = s.supply := rfl
@[simp] theorem setStore_banks (x : MetrologyStore) (s : State) :
    (setStore x s).banks = s.banks := rfl
@[simp] theorem setStore_notices (x : MetrologyStore) (s : State) :
    (setStore x s).notices = s.notices := rfl
@[simp] theorem setStore_noticeMask (x : MetrologyStore) (s : State) :
    (setStore x s).noticeMask = s.noticeMask := rfl
@[simp] theorem setStore_port (x : MetrologyStore) (s : State) :
    (setStore x s).port = s.port := rfl
@[simp] theorem setStore_pending (x : MetrologyStore) (s : State) :
    (setStore x s).pending = s.pending := rfl

/-! ### setLoads -/

@[simp] theorem setLoads_machines (x : LoadController) (s : State) :
    (setLoads x s).machines = s.machines := rfl
@[simp] theorem setLoads_tagIndex (x : LoadController) (s : State) :
    (setLoads x s).tagIndex = s.tagIndex := rfl
@[simp] theorem setLoads_ranges (x : LoadController) (s : State) :
    (setLoads x s).ranges = s.ranges := rfl
@[simp] theorem setLoads_defaultPolicy (x : LoadController) (s : State) :
    (setLoads x s).defaultPolicy = s.defaultPolicy := rfl
@[simp] theorem setLoads_readers (x : LoadController) (s : State) :
    (setLoads x s).readers = s.readers := rfl
@[simp] theorem setLoads_accounts (x : LoadController) (s : State) :
    (setLoads x s).accounts = s.accounts := rfl
@[simp] theorem setLoads_prices (x : LoadController) (s : State) :
    (setLoads x s).prices = s.prices := rfl
@[simp] theorem setLoads_compartments (x : LoadController) (s : State) :
    (setLoads x s).compartments = s.compartments := rfl
@[simp] theorem setLoads_hoses (x : LoadController) (s : State) :
    (setLoads x s).hoses = s.hoses := rfl
@[simp] theorem setLoads_field (x : LoadController) (s : State) :
    (setLoads x s).field = s.field := rfl
@[simp] theorem setLoads_drivePermit (x : LoadController) (s : State) :
    (setLoads x s).drivePermit = s.drivePermit := rfl
@[simp] theorem setLoads_channels (x : LoadController) (s : State) :
    (setLoads x s).channels = s.channels := rfl
@[simp] theorem setLoads_store (x : LoadController) (s : State) :
    (setLoads x s).store = s.store := rfl
@[simp] theorem setLoads_loads (x : LoadController) (s : State) :
    (setLoads x s).loads = x := rfl
@[simp] theorem setLoads_timebase (x : LoadController) (s : State) :
    (setLoads x s).timebase = s.timebase := rfl
@[simp] theorem setLoads_supply (x : LoadController) (s : State) :
    (setLoads x s).supply = s.supply := rfl
@[simp] theorem setLoads_banks (x : LoadController) (s : State) :
    (setLoads x s).banks = s.banks := rfl
@[simp] theorem setLoads_notices (x : LoadController) (s : State) :
    (setLoads x s).notices = s.notices := rfl
@[simp] theorem setLoads_noticeMask (x : LoadController) (s : State) :
    (setLoads x s).noticeMask = s.noticeMask := rfl
@[simp] theorem setLoads_port (x : LoadController) (s : State) :
    (setLoads x s).port = s.port := rfl
@[simp] theorem setLoads_pending (x : LoadController) (s : State) :
    (setLoads x s).pending = s.pending := rfl

/-! ### setTimebase -/

@[simp] theorem setTimebase_machines (x : Timebase) (s : State) :
    (setTimebase x s).machines = s.machines := rfl
@[simp] theorem setTimebase_tagIndex (x : Timebase) (s : State) :
    (setTimebase x s).tagIndex = s.tagIndex := rfl
@[simp] theorem setTimebase_ranges (x : Timebase) (s : State) :
    (setTimebase x s).ranges = s.ranges := rfl
@[simp] theorem setTimebase_defaultPolicy (x : Timebase) (s : State) :
    (setTimebase x s).defaultPolicy = s.defaultPolicy := rfl
@[simp] theorem setTimebase_readers (x : Timebase) (s : State) :
    (setTimebase x s).readers = s.readers := rfl
@[simp] theorem setTimebase_accounts (x : Timebase) (s : State) :
    (setTimebase x s).accounts = s.accounts := rfl
@[simp] theorem setTimebase_prices (x : Timebase) (s : State) :
    (setTimebase x s).prices = s.prices := rfl
@[simp] theorem setTimebase_compartments (x : Timebase) (s : State) :
    (setTimebase x s).compartments = s.compartments := rfl
@[simp] theorem setTimebase_hoses (x : Timebase) (s : State) :
    (setTimebase x s).hoses = s.hoses := rfl
@[simp] theorem setTimebase_field (x : Timebase) (s : State) :
    (setTimebase x s).field = s.field := rfl
@[simp] theorem setTimebase_drivePermit (x : Timebase) (s : State) :
    (setTimebase x s).drivePermit = s.drivePermit := rfl
@[simp] theorem setTimebase_channels (x : Timebase) (s : State) :
    (setTimebase x s).channels = s.channels := rfl
@[simp] theorem setTimebase_store (x : Timebase) (s : State) :
    (setTimebase x s).store = s.store := rfl
@[simp] theorem setTimebase_loads (x : Timebase) (s : State) :
    (setTimebase x s).loads = s.loads := rfl
@[simp] theorem setTimebase_timebase (x : Timebase) (s : State) :
    (setTimebase x s).timebase = x := rfl
@[simp] theorem setTimebase_supply (x : Timebase) (s : State) :
    (setTimebase x s).supply = s.supply := rfl
@[simp] theorem setTimebase_banks (x : Timebase) (s : State) :
    (setTimebase x s).banks = s.banks := rfl
@[simp] theorem setTimebase_notices (x : Timebase) (s : State) :
    (setTimebase x s).notices = s.notices := rfl
@[simp] theorem setTimebase_noticeMask (x : Timebase) (s : State) :
    (setTimebase x s).noticeMask = s.noticeMask := rfl
@[simp] theorem setTimebase_port (x : Timebase) (s : State) :
    (setTimebase x s).port = s.port := rfl
@[simp] theorem setTimebase_pending (x : Timebase) (s : State) :
    (setTimebase x s).pending = s.pending := rfl

/-! ### setPort -/

@[simp] theorem setPort_machines (x : Port) (s : State) :
    (setPort x s).machines = s.machines := rfl
@[simp] theorem setPort_tagIndex (x : Port) (s : State) :
    (setPort x s).tagIndex = s.tagIndex := rfl
@[simp] theorem setPort_ranges (x : Port) (s : State) :
    (setPort x s).ranges = s.ranges := rfl
@[simp] theorem setPort_defaultPolicy (x : Port) (s : State) :
    (setPort x s).defaultPolicy = s.defaultPolicy := rfl
@[simp] theorem setPort_readers (x : Port) (s : State) :
    (setPort x s).readers = s.readers := rfl
@[simp] theorem setPort_accounts (x : Port) (s : State) :
    (setPort x s).accounts = s.accounts := rfl
@[simp] theorem setPort_prices (x : Port) (s : State) :
    (setPort x s).prices = s.prices := rfl
@[simp] theorem setPort_compartments (x : Port) (s : State) :
    (setPort x s).compartments = s.compartments := rfl
@[simp] theorem setPort_hoses (x : Port) (s : State) :
    (setPort x s).hoses = s.hoses := rfl
@[simp] theorem setPort_field (x : Port) (s : State) :
    (setPort x s).field = s.field := rfl
@[simp] theorem setPort_drivePermit (x : Port) (s : State) :
    (setPort x s).drivePermit = s.drivePermit := rfl
@[simp] theorem setPort_channels (x : Port) (s : State) :
    (setPort x s).channels = s.channels := rfl
@[simp] theorem setPort_store (x : Port) (s : State) :
    (setPort x s).store = s.store := rfl
@[simp] theorem setPort_loads (x : Port) (s : State) :
    (setPort x s).loads = s.loads := rfl
@[simp] theorem setPort_timebase (x : Port) (s : State) :
    (setPort x s).timebase = s.timebase := rfl
@[simp] theorem setPort_supply (x : Port) (s : State) :
    (setPort x s).supply = s.supply := rfl
@[simp] theorem setPort_banks (x : Port) (s : State) :
    (setPort x s).banks = s.banks := rfl
@[simp] theorem setPort_notices (x : Port) (s : State) :
    (setPort x s).notices = s.notices := rfl
@[simp] theorem setPort_noticeMask (x : Port) (s : State) :
    (setPort x s).noticeMask = s.noticeMask := rfl
@[simp] theorem setPort_port (x : Port) (s : State) :
    (setPort x s).port = x := rfl
@[simp] theorem setPort_pending (x : Port) (s : State) :
    (setPort x s).pending = s.pending := rfl

/-! ### setBank -/

@[simp] theorem setBank_machines (i : BankId) (k : Bank) (s : State) :
    (setBank i k s).machines = s.machines := rfl
@[simp] theorem setBank_tagIndex (i : BankId) (k : Bank) (s : State) :
    (setBank i k s).tagIndex = s.tagIndex := rfl
@[simp] theorem setBank_ranges (i : BankId) (k : Bank) (s : State) :
    (setBank i k s).ranges = s.ranges := rfl
@[simp] theorem setBank_defaultPolicy (i : BankId) (k : Bank) (s : State) :
    (setBank i k s).defaultPolicy = s.defaultPolicy := rfl
@[simp] theorem setBank_readers (i : BankId) (k : Bank) (s : State) :
    (setBank i k s).readers = s.readers := rfl
@[simp] theorem setBank_accounts (i : BankId) (k : Bank) (s : State) :
    (setBank i k s).accounts = s.accounts := rfl
@[simp] theorem setBank_prices (i : BankId) (k : Bank) (s : State) :
    (setBank i k s).prices = s.prices := rfl
@[simp] theorem setBank_compartments (i : BankId) (k : Bank) (s : State) :
    (setBank i k s).compartments = s.compartments := rfl
@[simp] theorem setBank_hoses (i : BankId) (k : Bank) (s : State) :
    (setBank i k s).hoses = s.hoses := rfl
@[simp] theorem setBank_field (i : BankId) (k : Bank) (s : State) :
    (setBank i k s).field = s.field := rfl
@[simp] theorem setBank_drivePermit (i : BankId) (k : Bank) (s : State) :
    (setBank i k s).drivePermit = s.drivePermit := rfl
@[simp] theorem setBank_channels (i : BankId) (k : Bank) (s : State) :
    (setBank i k s).channels = s.channels := rfl
@[simp] theorem setBank_store (i : BankId) (k : Bank) (s : State) :
    (setBank i k s).store = s.store := rfl
@[simp] theorem setBank_loads (i : BankId) (k : Bank) (s : State) :
    (setBank i k s).loads = s.loads := rfl
@[simp] theorem setBank_timebase (i : BankId) (k : Bank) (s : State) :
    (setBank i k s).timebase = s.timebase := rfl
@[simp] theorem setBank_supply (i : BankId) (k : Bank) (s : State) :
    (setBank i k s).supply = s.supply := rfl
@[simp] theorem setBank_banks (i : BankId) (k : Bank) (s : State) :
    (setBank i k s).banks = bankSet s.banks i k := rfl
@[simp] theorem setBank_notices (i : BankId) (k : Bank) (s : State) :
    (setBank i k s).notices = s.notices := rfl
@[simp] theorem setBank_noticeMask (i : BankId) (k : Bank) (s : State) :
    (setBank i k s).noticeMask = s.noticeMask := rfl
@[simp] theorem setBank_port (i : BankId) (k : Bank) (s : State) :
    (setBank i k s).port = s.port := rfl
@[simp] theorem setBank_pending (i : BankId) (k : Bank) (s : State) :
    (setBank i k s).pending = s.pending := rfl

/-! ### setLevels -/

@[simp] theorem setLevels_machines (v : Switches) (s : State) :
    (setLevels v s).machines = s.machines := rfl
@[simp] theorem setLevels_tagIndex (v : Switches) (s : State) :
    (setLevels v s).tagIndex = s.tagIndex := rfl
@[simp] theorem setLevels_ranges (v : Switches) (s : State) :
    (setLevels v s).ranges = s.ranges := rfl
@[simp] theorem setLevels_defaultPolicy (v : Switches) (s : State) :
    (setLevels v s).defaultPolicy = s.defaultPolicy := rfl
@[simp] theorem setLevels_readers (v : Switches) (s : State) :
    (setLevels v s).readers = s.readers := rfl
@[simp] theorem setLevels_accounts (v : Switches) (s : State) :
    (setLevels v s).accounts = s.accounts := rfl
@[simp] theorem setLevels_prices (v : Switches) (s : State) :
    (setLevels v s).prices = s.prices := rfl
@[simp] theorem setLevels_compartments (v : Switches) (s : State) :
    (setLevels v s).compartments = s.compartments := rfl
@[simp] theorem setLevels_hoses (v : Switches) (s : State) :
    (setLevels v s).hoses = s.hoses := rfl
@[simp] theorem setLevels_field (v : Switches) (s : State) :
    (setLevels v s).field = { s.field with levels := v } := rfl
@[simp] theorem setLevels_drivePermit (v : Switches) (s : State) :
    (setLevels v s).drivePermit = s.drivePermit := rfl
@[simp] theorem setLevels_channels (v : Switches) (s : State) :
    (setLevels v s).channels = s.channels := rfl
@[simp] theorem setLevels_store (v : Switches) (s : State) :
    (setLevels v s).store = s.store := rfl
@[simp] theorem setLevels_loads (v : Switches) (s : State) :
    (setLevels v s).loads = s.loads := rfl
@[simp] theorem setLevels_timebase (v : Switches) (s : State) :
    (setLevels v s).timebase = s.timebase := rfl
@[simp] theorem setLevels_supply (v : Switches) (s : State) :
    (setLevels v s).supply = s.supply := rfl
@[simp] theorem setLevels_banks (v : Switches) (s : State) :
    (setLevels v s).banks = s.banks := rfl
@[simp] theorem setLevels_notices (v : Switches) (s : State) :
    (setLevels v s).notices = s.notices := rfl
@[simp] theorem setLevels_noticeMask (v : Switches) (s : State) :
    (setLevels v s).noticeMask = s.noticeMask := rfl
@[simp] theorem setLevels_port (v : Switches) (s : State) :
    (setLevels v s).port = s.port := rfl
@[simp] theorem setLevels_pending (v : Switches) (s : State) :
    (setLevels v s).pending = s.pending := rfl

/-! ### setChanged -/

@[simp] theorem setChanged_machines (v : Switches) (s : State) :
    (setChanged v s).machines = s.machines := rfl
@[simp] theorem setChanged_tagIndex (v : Switches) (s : State) :
    (setChanged v s).tagIndex = s.tagIndex := rfl
@[simp] theorem setChanged_ranges (v : Switches) (s : State) :
    (setChanged v s).ranges = s.ranges := rfl
@[simp] theorem setChanged_defaultPolicy (v : Switches) (s : State) :
    (setChanged v s).defaultPolicy = s.defaultPolicy := rfl
@[simp] theorem setChanged_readers (v : Switches) (s : State) :
    (setChanged v s).readers = s.readers := rfl
@[simp] theorem setChanged_accounts (v : Switches) (s : State) :
    (setChanged v s).accounts = s.accounts := rfl
@[simp] theorem setChanged_prices (v : Switches) (s : State) :
    (setChanged v s).prices = s.prices := rfl
@[simp] theorem setChanged_compartments (v : Switches) (s : State) :
    (setChanged v s).compartments = s.compartments := rfl
@[simp] theorem setChanged_hoses (v : Switches) (s : State) :
    (setChanged v s).hoses = s.hoses := rfl
@[simp] theorem setChanged_field (v : Switches) (s : State) :
    (setChanged v s).field = { s.field with changed := v } := rfl
@[simp] theorem setChanged_drivePermit (v : Switches) (s : State) :
    (setChanged v s).drivePermit = s.drivePermit := rfl
@[simp] theorem setChanged_channels (v : Switches) (s : State) :
    (setChanged v s).channels = s.channels := rfl
@[simp] theorem setChanged_store (v : Switches) (s : State) :
    (setChanged v s).store = s.store := rfl
@[simp] theorem setChanged_loads (v : Switches) (s : State) :
    (setChanged v s).loads = s.loads := rfl
@[simp] theorem setChanged_timebase (v : Switches) (s : State) :
    (setChanged v s).timebase = s.timebase := rfl
@[simp] theorem setChanged_supply (v : Switches) (s : State) :
    (setChanged v s).supply = s.supply := rfl
@[simp] theorem setChanged_banks (v : Switches) (s : State) :
    (setChanged v s).banks = s.banks := rfl
@[simp] theorem setChanged_notices (v : Switches) (s : State) :
    (setChanged v s).notices = s.notices := rfl
@[simp] theorem setChanged_noticeMask (v : Switches) (s : State) :
    (setChanged v s).noticeMask = s.noticeMask := rfl
@[simp] theorem setChanged_port (v : Switches) (s : State) :
    (setChanged v s).port = s.port := rfl
@[simp] theorem setChanged_pending (v : Switches) (s : State) :
    (setChanged v s).pending = s.pending := rfl

/-! ### putMachine -/

@[simp] theorem putMachine_machines (slot : Nat) (m : MachineRecord) (s : State) :
    (putMachine slot m s).machines = tableSet s.machines slot m := rfl
@[simp] theorem putMachine_tagIndex (slot : Nat) (m : MachineRecord) (s : State) :
    (putMachine slot m s).tagIndex = s.tagIndex := rfl
@[simp] theorem putMachine_ranges (slot : Nat) (m : MachineRecord) (s : State) :
    (putMachine slot m s).ranges = s.ranges := rfl
@[simp] theorem putMachine_defaultPolicy (slot : Nat) (m : MachineRecord) (s : State) :
    (putMachine slot m s).defaultPolicy = s.defaultPolicy := rfl
@[simp] theorem putMachine_readers (slot : Nat) (m : MachineRecord) (s : State) :
    (putMachine slot m s).readers = s.readers := rfl
@[simp] theorem putMachine_accounts (slot : Nat) (m : MachineRecord) (s : State) :
    (putMachine slot m s).accounts = s.accounts := rfl
@[simp] theorem putMachine_prices (slot : Nat) (m : MachineRecord) (s : State) :
    (putMachine slot m s).prices = s.prices := rfl
@[simp] theorem putMachine_compartments (slot : Nat) (m : MachineRecord) (s : State) :
    (putMachine slot m s).compartments = s.compartments := rfl
@[simp] theorem putMachine_hoses (slot : Nat) (m : MachineRecord) (s : State) :
    (putMachine slot m s).hoses = s.hoses := rfl
@[simp] theorem putMachine_field (slot : Nat) (m : MachineRecord) (s : State) :
    (putMachine slot m s).field = s.field := rfl
@[simp] theorem putMachine_drivePermit (slot : Nat) (m : MachineRecord) (s : State) :
    (putMachine slot m s).drivePermit = s.drivePermit := rfl
@[simp] theorem putMachine_channels (slot : Nat) (m : MachineRecord) (s : State) :
    (putMachine slot m s).channels = s.channels := rfl
@[simp] theorem putMachine_store (slot : Nat) (m : MachineRecord) (s : State) :
    (putMachine slot m s).store = s.store := rfl
@[simp] theorem putMachine_loads (slot : Nat) (m : MachineRecord) (s : State) :
    (putMachine slot m s).loads = s.loads := rfl
@[simp] theorem putMachine_timebase (slot : Nat) (m : MachineRecord) (s : State) :
    (putMachine slot m s).timebase = s.timebase := rfl
@[simp] theorem putMachine_supply (slot : Nat) (m : MachineRecord) (s : State) :
    (putMachine slot m s).supply = s.supply := rfl
@[simp] theorem putMachine_banks (slot : Nat) (m : MachineRecord) (s : State) :
    (putMachine slot m s).banks = s.banks := rfl
@[simp] theorem putMachine_notices (slot : Nat) (m : MachineRecord) (s : State) :
    (putMachine slot m s).notices = s.notices := rfl
@[simp] theorem putMachine_noticeMask (slot : Nat) (m : MachineRecord) (s : State) :
    (putMachine slot m s).noticeMask = s.noticeMask := rfl
@[simp] theorem putMachine_port (slot : Nat) (m : MachineRecord) (s : State) :
    (putMachine slot m s).port = s.port := rfl
@[simp] theorem putMachine_pending (slot : Nat) (m : MachineRecord) (s : State) :
    (putMachine slot m s).pending = s.pending := rfl

/-! ### writeMachine -/

@[simp] theorem writeMachine_machines (slot : Nat) (m : MachineRecord) (s : State) :
    (writeMachine slot m s).machines = tableSet s.machines slot (machineStamp m) := rfl
@[simp] theorem writeMachine_tagIndex (slot : Nat) (m : MachineRecord) (s : State) :
    (writeMachine slot m s).tagIndex = s.tagIndex := rfl
@[simp] theorem writeMachine_ranges (slot : Nat) (m : MachineRecord) (s : State) :
    (writeMachine slot m s).ranges = s.ranges := rfl
@[simp] theorem writeMachine_defaultPolicy (slot : Nat) (m : MachineRecord) (s : State) :
    (writeMachine slot m s).defaultPolicy = s.defaultPolicy := rfl
@[simp] theorem writeMachine_readers (slot : Nat) (m : MachineRecord) (s : State) :
    (writeMachine slot m s).readers = s.readers := rfl
@[simp] theorem writeMachine_accounts (slot : Nat) (m : MachineRecord) (s : State) :
    (writeMachine slot m s).accounts = s.accounts := rfl
@[simp] theorem writeMachine_prices (slot : Nat) (m : MachineRecord) (s : State) :
    (writeMachine slot m s).prices = s.prices := rfl
@[simp] theorem writeMachine_compartments (slot : Nat) (m : MachineRecord) (s : State) :
    (writeMachine slot m s).compartments = s.compartments := rfl
@[simp] theorem writeMachine_hoses (slot : Nat) (m : MachineRecord) (s : State) :
    (writeMachine slot m s).hoses = s.hoses := rfl
@[simp] theorem writeMachine_field (slot : Nat) (m : MachineRecord) (s : State) :
    (writeMachine slot m s).field = s.field := rfl
@[simp] theorem writeMachine_drivePermit (slot : Nat) (m : MachineRecord) (s : State) :
    (writeMachine slot m s).drivePermit = s.drivePermit := rfl
@[simp] theorem writeMachine_channels (slot : Nat) (m : MachineRecord) (s : State) :
    (writeMachine slot m s).channels = s.channels := rfl
@[simp] theorem writeMachine_store (slot : Nat) (m : MachineRecord) (s : State) :
    (writeMachine slot m s).store = s.store := rfl
@[simp] theorem writeMachine_loads (slot : Nat) (m : MachineRecord) (s : State) :
    (writeMachine slot m s).loads = s.loads := rfl
@[simp] theorem writeMachine_timebase (slot : Nat) (m : MachineRecord) (s : State) :
    (writeMachine slot m s).timebase = s.timebase := rfl
@[simp] theorem writeMachine_supply (slot : Nat) (m : MachineRecord) (s : State) :
    (writeMachine slot m s).supply = s.supply := rfl
@[simp] theorem writeMachine_banks (slot : Nat) (m : MachineRecord) (s : State) :
    (writeMachine slot m s).banks = s.banks := rfl
@[simp] theorem writeMachine_notices (slot : Nat) (m : MachineRecord) (s : State) :
    (writeMachine slot m s).notices = s.notices := rfl
@[simp] theorem writeMachine_noticeMask (slot : Nat) (m : MachineRecord) (s : State) :
    (writeMachine slot m s).noticeMask = s.noticeMask := rfl
@[simp] theorem writeMachine_port (slot : Nat) (m : MachineRecord) (s : State) :
    (writeMachine slot m s).port = s.port := rfl
@[simp] theorem writeMachine_pending (slot : Nat) (m : MachineRecord) (s : State) :
    (writeMachine slot m s).pending = s.pending := rfl

/-! ### putAccount -/

@[simp] theorem putAccount_machines (slot : Nat) (a : AccountRecord) (s : State) :
    (putAccount slot a s).machines = s.machines := rfl
@[simp] theorem putAccount_tagIndex (slot : Nat) (a : AccountRecord) (s : State) :
    (putAccount slot a s).tagIndex = s.tagIndex := rfl
@[simp] theorem putAccount_ranges (slot : Nat) (a : AccountRecord) (s : State) :
    (putAccount slot a s).ranges = s.ranges := rfl
@[simp] theorem putAccount_defaultPolicy (slot : Nat) (a : AccountRecord) (s : State) :
    (putAccount slot a s).defaultPolicy = s.defaultPolicy := rfl
@[simp] theorem putAccount_readers (slot : Nat) (a : AccountRecord) (s : State) :
    (putAccount slot a s).readers = s.readers := rfl
@[simp] theorem putAccount_accounts (slot : Nat) (a : AccountRecord) (s : State) :
    (putAccount slot a s).accounts = tableSet s.accounts slot a := rfl
@[simp] theorem putAccount_prices (slot : Nat) (a : AccountRecord) (s : State) :
    (putAccount slot a s).prices = s.prices := rfl
@[simp] theorem putAccount_compartments (slot : Nat) (a : AccountRecord) (s : State) :
    (putAccount slot a s).compartments = s.compartments := rfl
@[simp] theorem putAccount_hoses (slot : Nat) (a : AccountRecord) (s : State) :
    (putAccount slot a s).hoses = s.hoses := rfl
@[simp] theorem putAccount_field (slot : Nat) (a : AccountRecord) (s : State) :
    (putAccount slot a s).field = s.field := rfl
@[simp] theorem putAccount_drivePermit (slot : Nat) (a : AccountRecord) (s : State) :
    (putAccount slot a s).drivePermit = s.drivePermit := rfl
@[simp] theorem putAccount_channels (slot : Nat) (a : AccountRecord) (s : State) :
    (putAccount slot a s).channels = s.channels := rfl
@[simp] theorem putAccount_store (slot : Nat) (a : AccountRecord) (s : State) :
    (putAccount slot a s).store = s.store := rfl
@[simp] theorem putAccount_loads (slot : Nat) (a : AccountRecord) (s : State) :
    (putAccount slot a s).loads = s.loads := rfl
@[simp] theorem putAccount_timebase (slot : Nat) (a : AccountRecord) (s : State) :
    (putAccount slot a s).timebase = s.timebase := rfl
@[simp] theorem putAccount_supply (slot : Nat) (a : AccountRecord) (s : State) :
    (putAccount slot a s).supply = s.supply := rfl
@[simp] theorem putAccount_banks (slot : Nat) (a : AccountRecord) (s : State) :
    (putAccount slot a s).banks = s.banks := rfl
@[simp] theorem putAccount_notices (slot : Nat) (a : AccountRecord) (s : State) :
    (putAccount slot a s).notices = s.notices := rfl
@[simp] theorem putAccount_noticeMask (slot : Nat) (a : AccountRecord) (s : State) :
    (putAccount slot a s).noticeMask = s.noticeMask := rfl
@[simp] theorem putAccount_port (slot : Nat) (a : AccountRecord) (s : State) :
    (putAccount slot a s).port = s.port := rfl
@[simp] theorem putAccount_pending (slot : Nat) (a : AccountRecord) (s : State) :
    (putAccount slot a s).pending = s.pending := rfl

/-! ### writeAccount -/

@[simp] theorem writeAccount_machines (slot : Nat) (a : AccountRecord) (s : State) :
    (writeAccount slot a s).machines = s.machines := rfl
@[simp] theorem writeAccount_tagIndex (slot : Nat) (a : AccountRecord) (s : State) :
    (writeAccount slot a s).tagIndex = s.tagIndex := rfl
@[simp] theorem writeAccount_ranges (slot : Nat) (a : AccountRecord) (s : State) :
    (writeAccount slot a s).ranges = s.ranges := rfl
@[simp] theorem writeAccount_defaultPolicy (slot : Nat) (a : AccountRecord) (s : State) :
    (writeAccount slot a s).defaultPolicy = s.defaultPolicy := rfl
@[simp] theorem writeAccount_readers (slot : Nat) (a : AccountRecord) (s : State) :
    (writeAccount slot a s).readers = s.readers := rfl
@[simp] theorem writeAccount_accounts (slot : Nat) (a : AccountRecord) (s : State) :
    (writeAccount slot a s).accounts = tableSet s.accounts slot (accountStamp a) := rfl
@[simp] theorem writeAccount_prices (slot : Nat) (a : AccountRecord) (s : State) :
    (writeAccount slot a s).prices = s.prices := rfl
@[simp] theorem writeAccount_compartments (slot : Nat) (a : AccountRecord) (s : State) :
    (writeAccount slot a s).compartments = s.compartments := rfl
@[simp] theorem writeAccount_hoses (slot : Nat) (a : AccountRecord) (s : State) :
    (writeAccount slot a s).hoses = s.hoses := rfl
@[simp] theorem writeAccount_field (slot : Nat) (a : AccountRecord) (s : State) :
    (writeAccount slot a s).field = s.field := rfl
@[simp] theorem writeAccount_drivePermit (slot : Nat) (a : AccountRecord) (s : State) :
    (writeAccount slot a s).drivePermit = s.drivePermit := rfl
@[simp] theorem writeAccount_channels (slot : Nat) (a : AccountRecord) (s : State) :
    (writeAccount slot a s).channels = s.channels := rfl
@[simp] theorem writeAccount_store (slot : Nat) (a : AccountRecord) (s : State) :
    (writeAccount slot a s).store = s.store := rfl
@[simp] theorem writeAccount_loads (slot : Nat) (a : AccountRecord) (s : State) :
    (writeAccount slot a s).loads = s.loads := rfl
@[simp] theorem writeAccount_timebase (slot : Nat) (a : AccountRecord) (s : State) :
    (writeAccount slot a s).timebase = s.timebase := rfl
@[simp] theorem writeAccount_supply (slot : Nat) (a : AccountRecord) (s : State) :
    (writeAccount slot a s).supply = s.supply := rfl
@[simp] theorem writeAccount_banks (slot : Nat) (a : AccountRecord) (s : State) :
    (writeAccount slot a s).banks = s.banks := rfl
@[simp] theorem writeAccount_notices (slot : Nat) (a : AccountRecord) (s : State) :
    (writeAccount slot a s).notices = s.notices := rfl
@[simp] theorem writeAccount_noticeMask (slot : Nat) (a : AccountRecord) (s : State) :
    (writeAccount slot a s).noticeMask = s.noticeMask := rfl
@[simp] theorem writeAccount_port (slot : Nat) (a : AccountRecord) (s : State) :
    (writeAccount slot a s).port = s.port := rfl
@[simp] theorem writeAccount_pending (slot : Nat) (a : AccountRecord) (s : State) :
    (writeAccount slot a s).pending = s.pending := rfl

/-! ### setOrder -/

@[simp] theorem setOrder_machines (slot : Nat) (o : LoadOrder) (s : State) :
    (setOrder slot o s).machines = s.machines := rfl
@[simp] theorem setOrder_tagIndex (slot : Nat) (o : LoadOrder) (s : State) :
    (setOrder slot o s).tagIndex = s.tagIndex := rfl
@[simp] theorem setOrder_ranges (slot : Nat) (o : LoadOrder) (s : State) :
    (setOrder slot o s).ranges = s.ranges := rfl
@[simp] theorem setOrder_defaultPolicy (slot : Nat) (o : LoadOrder) (s : State) :
    (setOrder slot o s).defaultPolicy = s.defaultPolicy := rfl
@[simp] theorem setOrder_readers (slot : Nat) (o : LoadOrder) (s : State) :
    (setOrder slot o s).readers = s.readers := rfl
@[simp] theorem setOrder_accounts (slot : Nat) (o : LoadOrder) (s : State) :
    (setOrder slot o s).accounts = s.accounts := rfl
@[simp] theorem setOrder_prices (slot : Nat) (o : LoadOrder) (s : State) :
    (setOrder slot o s).prices = s.prices := rfl
@[simp] theorem setOrder_compartments (slot : Nat) (o : LoadOrder) (s : State) :
    (setOrder slot o s).compartments = s.compartments := rfl
@[simp] theorem setOrder_hoses (slot : Nat) (o : LoadOrder) (s : State) :
    (setOrder slot o s).hoses = s.hoses := rfl
@[simp] theorem setOrder_field (slot : Nat) (o : LoadOrder) (s : State) :
    (setOrder slot o s).field = s.field := rfl
@[simp] theorem setOrder_drivePermit (slot : Nat) (o : LoadOrder) (s : State) :
    (setOrder slot o s).drivePermit = s.drivePermit := rfl
@[simp] theorem setOrder_channels (slot : Nat) (o : LoadOrder) (s : State) :
    (setOrder slot o s).channels = s.channels := rfl
@[simp] theorem setOrder_store (slot : Nat) (o : LoadOrder) (s : State) :
    (setOrder slot o s).store = s.store := rfl
@[simp] theorem setOrder_loads (slot : Nat) (o : LoadOrder) (s : State) :
    (setOrder slot o s).loads = { s.loads with orders := tableSet s.loads.orders slot o } := rfl
@[simp] theorem setOrder_timebase (slot : Nat) (o : LoadOrder) (s : State) :
    (setOrder slot o s).timebase = s.timebase := rfl
@[simp] theorem setOrder_supply (slot : Nat) (o : LoadOrder) (s : State) :
    (setOrder slot o s).supply = s.supply := rfl
@[simp] theorem setOrder_banks (slot : Nat) (o : LoadOrder) (s : State) :
    (setOrder slot o s).banks = s.banks := rfl
@[simp] theorem setOrder_notices (slot : Nat) (o : LoadOrder) (s : State) :
    (setOrder slot o s).notices = s.notices := rfl
@[simp] theorem setOrder_noticeMask (slot : Nat) (o : LoadOrder) (s : State) :
    (setOrder slot o s).noticeMask = s.noticeMask := rfl
@[simp] theorem setOrder_port (slot : Nat) (o : LoadOrder) (s : State) :
    (setOrder slot o s).port = s.port := rfl
@[simp] theorem setOrder_pending (slot : Nat) (o : LoadOrder) (s : State) :
    (setOrder slot o s).pending = s.pending := rfl

/-! ### reachInstant -/

@[simp] theorem reachInstant_machines (t : Nat) (s : State) :
    (reachInstant t s).machines = s.machines := rfl
@[simp] theorem reachInstant_tagIndex (t : Nat) (s : State) :
    (reachInstant t s).tagIndex = s.tagIndex := rfl
@[simp] theorem reachInstant_ranges (t : Nat) (s : State) :
    (reachInstant t s).ranges = s.ranges := rfl
@[simp] theorem reachInstant_defaultPolicy (t : Nat) (s : State) :
    (reachInstant t s).defaultPolicy = s.defaultPolicy := rfl
@[simp] theorem reachInstant_readers (t : Nat) (s : State) :
    (reachInstant t s).readers = s.readers := rfl
@[simp] theorem reachInstant_accounts (t : Nat) (s : State) :
    (reachInstant t s).accounts = s.accounts := rfl
@[simp] theorem reachInstant_prices (t : Nat) (s : State) :
    (reachInstant t s).prices = s.prices := rfl
@[simp] theorem reachInstant_compartments (t : Nat) (s : State) :
    (reachInstant t s).compartments = s.compartments := rfl
@[simp] theorem reachInstant_hoses (t : Nat) (s : State) :
    (reachInstant t s).hoses = s.hoses := rfl
@[simp] theorem reachInstant_field (t : Nat) (s : State) :
    (reachInstant t s).field = s.field := rfl
@[simp] theorem reachInstant_drivePermit (t : Nat) (s : State) :
    (reachInstant t s).drivePermit = s.drivePermit := rfl
@[simp] theorem reachInstant_channels (t : Nat) (s : State) :
    (reachInstant t s).channels = s.channels := rfl
@[simp] theorem reachInstant_store (t : Nat) (s : State) :
    (reachInstant t s).store = s.store := rfl
@[simp] theorem reachInstant_loads (t : Nat) (s : State) :
    (reachInstant t s).loads = s.loads := rfl
@[simp] theorem reachInstant_timebase (t : Nat) (s : State) :
    (reachInstant t s).timebase = passTicks (t - s.timebase.now) s.timebase := rfl
@[simp] theorem reachInstant_supply (t : Nat) (s : State) :
    (reachInstant t s).supply = s.supply := rfl
@[simp] theorem reachInstant_banks (t : Nat) (s : State) :
    (reachInstant t s).banks = s.banks := rfl
@[simp] theorem reachInstant_notices (t : Nat) (s : State) :
    (reachInstant t s).notices = s.notices := rfl
@[simp] theorem reachInstant_noticeMask (t : Nat) (s : State) :
    (reachInstant t s).noticeMask = s.noticeMask := rfl
@[simp] theorem reachInstant_port (t : Nat) (s : State) :
    (reachInstant t s).port = s.port := rfl
@[simp] theorem reachInstant_pending (t : Nat) (s : State) :
    (reachInstant t s).pending = s.pending := rfl

/-! ### passTicks -/

@[simp] theorem passTicks_now (k : Nat) (t : Timebase) : (passTicks k t).now = t.now + k := rfl
@[simp] theorem passTicks_capture (k : Nat) (t : Timebase) :
    (passTicks k t).capture = (t.capture + 1000 * k) % Config.clockModulus := rfl
@[simp] theorem passTicks_count (k : Nat) (t : Timebase) : (passTicks k t).count = t.count := rfl
@[simp] theorem passTicks_window (k : Nat) (t : Timebase) : (passTicks k t).window = t.window := rfl
@[simp] theorem passTicks_windowStart (k : Nat) (t : Timebase) : (passTicks k t).windowStart = t.windowStart := rfl
@[simp] theorem passTicks_pendingWindow (k : Nat) (t : Timebase) :
    (passTicks k t).pendingWindow = t.pendingWindow := rfl
@[simp] theorem passTicks_holdOff (k : Nat) (t : Timebase) : (passTicks k t).holdOff = t.holdOff := rfl

/-- Where the instant stands after it has moved on. -/
theorem reachInstant_now (t : Nat) (s : State) : (reachInstant t s).timebase.now = max s.timebase.now t := by
  simp only [reachInstant_timebase, passTicks_now]
  omega

/-! ### evaluatePermit -/

@[simp] theorem evaluatePermit_machines (s : State) :
    (evaluatePermit s).machines = s.machines := rfl
@[simp] theorem evaluatePermit_tagIndex (s : State) :
    (evaluatePermit s).tagIndex = s.tagIndex := rfl
@[simp] theorem evaluatePermit_ranges (s : State) :
    (evaluatePermit s).ranges = s.ranges := rfl
@[simp] theorem evaluatePermit_defaultPolicy (s : State) :
    (evaluatePermit s).defaultPolicy = s.defaultPolicy := rfl
@[simp] theorem evaluatePermit_readers (s : State) :
    (evaluatePermit s).readers = s.readers := rfl
@[simp] theorem evaluatePermit_accounts (s : State) :
    (evaluatePermit s).accounts = s.accounts := rfl
@[simp] theorem evaluatePermit_prices (s : State) :
    (evaluatePermit s).prices = s.prices := rfl
@[simp] theorem evaluatePermit_compartments (s : State) :
    (evaluatePermit s).compartments = s.compartments := rfl
@[simp] theorem evaluatePermit_hoses (s : State) :
    (evaluatePermit s).hoses = s.hoses := rfl
@[simp] theorem evaluatePermit_field (s : State) :
    (evaluatePermit s).field = s.field := rfl
@[simp] theorem evaluatePermit_drivePermit (s : State) :
    (evaluatePermit s).drivePermit = permitConditions s := rfl
@[simp] theorem evaluatePermit_channels (s : State) :
    (evaluatePermit s).channels = s.channels := rfl
@[simp] theorem evaluatePermit_store (s : State) :
    (evaluatePermit s).store = s.store := rfl
@[simp] theorem evaluatePermit_loads (s : State) :
    (evaluatePermit s).loads = s.loads := rfl
@[simp] theorem evaluatePermit_timebase (s : State) :
    (evaluatePermit s).timebase = s.timebase := rfl
@[simp] theorem evaluatePermit_supply (s : State) :
    (evaluatePermit s).supply = s.supply := rfl
@[simp] theorem evaluatePermit_banks (s : State) :
    (evaluatePermit s).banks = s.banks := rfl
@[simp] theorem evaluatePermit_notices (s : State) :
    (evaluatePermit s).notices = s.notices := rfl
@[simp] theorem evaluatePermit_noticeMask (s : State) :
    (evaluatePermit s).noticeMask = s.noticeMask := rfl
@[simp] theorem evaluatePermit_port (s : State) :
    (evaluatePermit s).port = s.port := rfl
@[simp] theorem evaluatePermit_pending (s : State) :
    (evaluatePermit s).pending = s.pending := rfl

/-! ### dropNotice -/

@[simp] theorem dropNotice_machines (n : Notice) (s : State) :
    (dropNotice n s).machines = s.machines := rfl
@[simp] theorem dropNotice_tagIndex (n : Notice) (s : State) :
    (dropNotice n s).tagIndex = s.tagIndex := rfl
@[simp] theorem dropNotice_ranges (n : Notice) (s : State) :
    (dropNotice n s).ranges = s.ranges := rfl
@[simp] theorem dropNotice_defaultPolicy (n : Notice) (s : State) :
    (dropNotice n s).defaultPolicy = s.defaultPolicy := rfl
@[simp] theorem dropNotice_readers (n : Notice) (s : State) :
    (dropNotice n s).readers = s.readers := rfl
@[simp] theorem dropNotice_accounts (n : Notice) (s : State) :
    (dropNotice n s).accounts = s.accounts := rfl
@[simp] theorem dropNotice_prices (n : Notice) (s : State) :
    (dropNotice n s).prices = s.prices := rfl
@[simp] theorem dropNotice_compartments (n : Notice) (s : State) :
    (dropNotice n s).compartments = s.compartments := rfl
@[simp] theorem dropNotice_hoses (n : Notice) (s : State) :
    (dropNotice n s).hoses = s.hoses := rfl
@[simp] theorem dropNotice_field (n : Notice) (s : State) :
    (dropNotice n s).field = s.field := rfl
@[simp] theorem dropNotice_drivePermit (n : Notice) (s : State) :
    (dropNotice n s).drivePermit = s.drivePermit := rfl
@[simp] theorem dropNotice_channels (n : Notice) (s : State) :
    (dropNotice n s).channels = s.channels := rfl
@[simp] theorem dropNotice_store (n : Notice) (s : State) :
    (dropNotice n s).store = s.store := rfl
@[simp] theorem dropNotice_loads (n : Notice) (s : State) :
    (dropNotice n s).loads = s.loads := rfl
@[simp] theorem dropNotice_timebase (n : Notice) (s : State) :
    (dropNotice n s).timebase = s.timebase := rfl
@[simp] theorem dropNotice_supply (n : Notice) (s : State) :
    (dropNotice n s).supply = s.supply := rfl
@[simp] theorem dropNotice_banks (n : Notice) (s : State) :
    (dropNotice n s).banks = s.banks := rfl
@[simp] theorem dropNotice_notices (n : Notice) (s : State) :
    (dropNotice n s).notices = s.notices.filter (fun m => m != n) := rfl
@[simp] theorem dropNotice_noticeMask (n : Notice) (s : State) :
    (dropNotice n s).noticeMask = s.noticeMask := rfl
@[simp] theorem dropNotice_port (n : Notice) (s : State) :
    (dropNotice n s).port = s.port := rfl
@[simp] theorem dropNotice_pending (n : Notice) (s : State) :
    (dropNotice n s).pending = s.pending := rfl

/-! ### openChannel -/

@[simp] theorem openChannel_machines (m : MeterId) (s : State) :
    (openChannel m s).machines = s.machines := rfl
@[simp] theorem openChannel_tagIndex (m : MeterId) (s : State) :
    (openChannel m s).tagIndex = s.tagIndex := rfl
@[simp] theorem openChannel_ranges (m : MeterId) (s : State) :
    (openChannel m s).ranges = s.ranges := rfl
@[simp] theorem openChannel_defaultPolicy (m : MeterId) (s : State) :
    (openChannel m s).defaultPolicy = s.defaultPolicy := rfl
@[simp] theorem openChannel_readers (m : MeterId) (s : State) :
    (openChannel m s).readers = s.readers := rfl
@[simp] theorem openChannel_accounts (m : MeterId) (s : State) :
    (openChannel m s).accounts = s.accounts := rfl
@[simp] theorem openChannel_prices (m : MeterId) (s : State) :
    (openChannel m s).prices = s.prices := rfl
@[simp] theorem openChannel_compartments (m : MeterId) (s : State) :
    (openChannel m s).compartments = s.compartments := rfl
@[simp] theorem openChannel_hoses (m : MeterId) (s : State) :
    (openChannel m s).hoses = s.hoses := rfl
@[simp] theorem openChannel_field (m : MeterId) (s : State) :
    (openChannel m s).field = s.field := rfl
@[simp] theorem openChannel_drivePermit (m : MeterId) (s : State) :
    (openChannel m s).drivePermit = s.drivePermit := rfl
@[simp] theorem openChannel_store (m : MeterId) (s : State) :
    (openChannel m s).store = s.store := rfl
@[simp] theorem openChannel_loads (m : MeterId) (s : State) :
    (openChannel m s).loads = s.loads := rfl
@[simp] theorem openChannel_timebase (m : MeterId) (s : State) :
    (openChannel m s).timebase = s.timebase := rfl
@[simp] theorem openChannel_supply (m : MeterId) (s : State) :
    (openChannel m s).supply = s.supply := rfl
@[simp] theorem openChannel_banks (m : MeterId) (s : State) :
    (openChannel m s).banks = s.banks := rfl
@[simp] theorem openChannel_notices (m : MeterId) (s : State) :
    (openChannel m s).notices = s.notices := rfl
@[simp] theorem openChannel_noticeMask (m : MeterId) (s : State) :
    (openChannel m s).noticeMask = s.noticeMask := rfl
@[simp] theorem openChannel_port (m : MeterId) (s : State) :
    (openChannel m s).port = s.port := rfl
@[simp] theorem openChannel_pending (m : MeterId) (s : State) :
    (openChannel m s).pending = s.pending := rfl

/-! ### finish -/

@[simp] theorem finish_machines (c : Instr) (a : Answer) (s : State) :
    (finish c a s).machines = s.machines := rfl
@[simp] theorem finish_tagIndex (c : Instr) (a : Answer) (s : State) :
    (finish c a s).tagIndex = s.tagIndex := rfl
@[simp] theorem finish_ranges (c : Instr) (a : Answer) (s : State) :
    (finish c a s).ranges = s.ranges := rfl
@[simp] theorem finish_defaultPolicy (c : Instr) (a : Answer) (s : State) :
    (finish c a s).defaultPolicy = s.defaultPolicy := rfl
@[simp] theorem finish_readers (c : Instr) (a : Answer) (s : State) :
    (finish c a s).readers = s.readers := rfl
@[simp] theorem finish_accounts (c : Instr) (a : Answer) (s : State) :
    (finish c a s).accounts = s.accounts := rfl
@[simp] theorem finish_prices (c : Instr) (a : Answer) (s : State) :
    (finish c a s).prices = s.prices := rfl
@[simp] theorem finish_compartments (c : Instr) (a : Answer) (s : State) :
    (finish c a s).compartments = s.compartments := rfl
@[simp] theorem finish_hoses (c : Instr) (a : Answer) (s : State) :
    (finish c a s).hoses = s.hoses := rfl
@[simp] theorem finish_field (c : Instr) (a : Answer) (s : State) :
    (finish c a s).field = s.field := rfl
@[simp] theorem finish_drivePermit (c : Instr) (a : Answer) (s : State) :
    (finish c a s).drivePermit = s.drivePermit := rfl
@[simp] theorem finish_channels (c : Instr) (a : Answer) (s : State) :
    (finish c a s).channels = s.channels := rfl
@[simp] theorem finish_store (c : Instr) (a : Answer) (s : State) :
    (finish c a s).store = s.store := rfl
@[simp] theorem finish_loads (c : Instr) (a : Answer) (s : State) :
    (finish c a s).loads = s.loads := rfl
@[simp] theorem finish_timebase (c : Instr) (a : Answer) (s : State) :
    (finish c a s).timebase = s.timebase := rfl
@[simp] theorem finish_supply (c : Instr) (a : Answer) (s : State) :
    (finish c a s).supply = s.supply := rfl
@[simp] theorem finish_banks (c : Instr) (a : Answer) (s : State) :
    (finish c a s).banks = s.banks := rfl
@[simp] theorem finish_notices (c : Instr) (a : Answer) (s : State) :
    (finish c a s).notices = s.notices := rfl
@[simp] theorem finish_noticeMask (c : Instr) (a : Answer) (s : State) :
    (finish c a s).noticeMask = s.noticeMask := rfl
@[simp] theorem finish_port (c : Instr) (a : Answer) (s : State) :
    (finish c a s).port = finishPort c a s.port := rfl
@[simp] theorem finish_pending (c : Instr) (a : Answer) (s : State) :
    (finish c a s).pending = s.pending := rfl

/-! ### raise -/

@[simp] theorem raise_machines (n : Notice) (s : State) :
    (raise n s).machines = s.machines := by
  unfold raise; split <;> rfl
@[simp] theorem raise_tagIndex (n : Notice) (s : State) :
    (raise n s).tagIndex = s.tagIndex := by
  unfold raise; split <;> rfl
@[simp] theorem raise_ranges (n : Notice) (s : State) :
    (raise n s).ranges = s.ranges := by
  unfold raise; split <;> rfl
@[simp] theorem raise_defaultPolicy (n : Notice) (s : State) :
    (raise n s).defaultPolicy = s.defaultPolicy := by
  unfold raise; split <;> rfl
@[simp] theorem raise_readers (n : Notice) (s : State) :
    (raise n s).readers = s.readers := by
  unfold raise; split <;> rfl
@[simp] theorem raise_accounts (n : Notice) (s : State) :
    (raise n s).accounts = s.accounts := by
  unfold raise; split <;> rfl
@[simp] theorem raise_prices (n : Notice) (s : State) :
    (raise n s).prices = s.prices := by
  unfold raise; split <;> rfl
@[simp] theorem raise_compartments (n : Notice) (s : State) :
    (raise n s).compartments = s.compartments := by
  unfold raise; split <;> rfl
@[simp] theorem raise_hoses (n : Notice) (s : State) :
    (raise n s).hoses = s.hoses := by
  unfold raise; split <;> rfl
@[simp] theorem raise_field (n : Notice) (s : State) :
    (raise n s).field = s.field := by
  unfold raise; split <;> rfl
@[simp] theorem raise_drivePermit (n : Notice) (s : State) :
    (raise n s).drivePermit = s.drivePermit := by
  unfold raise; split <;> rfl
@[simp] theorem raise_channels (n : Notice) (s : State) :
    (raise n s).channels = s.channels := by
  unfold raise; split <;> rfl
@[simp] theorem raise_store (n : Notice) (s : State) :
    (raise n s).store = s.store := by
  unfold raise; split <;> rfl
@[simp] theorem raise_loads (n : Notice) (s : State) :
    (raise n s).loads = s.loads := by
  unfold raise; split <;> rfl
@[simp] theorem raise_timebase (n : Notice) (s : State) :
    (raise n s).timebase = s.timebase := by
  unfold raise; split <;> rfl
@[simp] theorem raise_supply (n : Notice) (s : State) :
    (raise n s).supply = s.supply := by
  unfold raise; split <;> rfl
@[simp] theorem raise_banks (n : Notice) (s : State) :
    (raise n s).banks = s.banks := by
  unfold raise; split <;> rfl
@[simp] theorem raise_notices (n : Notice) (s : State) :
    (raise n s).notices = if maskEnables s.noticeMask n then insertNotice n s.notices else s.notices := by
  unfold raise; split <;> rfl
@[simp] theorem raise_noticeMask (n : Notice) (s : State) :
    (raise n s).noticeMask = s.noticeMask := by
  unfold raise; split <;> rfl
@[simp] theorem raise_port (n : Notice) (s : State) :
    (raise n s).port = s.port := by
  unfold raise; split <;> rfl
@[simp] theorem raise_pending (n : Notice) (s : State) :
    (raise n s).pending = s.pending := by
  unfold raise; split <;> rfl

/-! ### report -/

@[simp] theorem report_machines (i : BankId) (kind : ErrorKind) (index : Nat) (detail : Int) (s : State) :
    (report i kind index detail s).machines = s.machines := by
  unfold report; dsimp only; split
  · split
    · simp
    · split <;> simp
  · rfl
@[simp] theorem report_tagIndex (i : BankId) (kind : ErrorKind) (index : Nat) (detail : Int) (s : State) :
    (report i kind index detail s).tagIndex = s.tagIndex := by
  unfold report; dsimp only; split
  · split
    · simp
    · split <;> simp
  · rfl
@[simp] theorem report_ranges (i : BankId) (kind : ErrorKind) (index : Nat) (detail : Int) (s : State) :
    (report i kind index detail s).ranges = s.ranges := by
  unfold report; dsimp only; split
  · split
    · simp
    · split <;> simp
  · rfl
@[simp] theorem report_defaultPolicy (i : BankId) (kind : ErrorKind) (index : Nat) (detail : Int) (s : State) :
    (report i kind index detail s).defaultPolicy = s.defaultPolicy := by
  unfold report; dsimp only; split
  · split
    · simp
    · split <;> simp
  · rfl
@[simp] theorem report_readers (i : BankId) (kind : ErrorKind) (index : Nat) (detail : Int) (s : State) :
    (report i kind index detail s).readers = s.readers := by
  unfold report; dsimp only; split
  · split
    · simp
    · split <;> simp
  · rfl
@[simp] theorem report_accounts (i : BankId) (kind : ErrorKind) (index : Nat) (detail : Int) (s : State) :
    (report i kind index detail s).accounts = s.accounts := by
  unfold report; dsimp only; split
  · split
    · simp
    · split <;> simp
  · rfl
@[simp] theorem report_prices (i : BankId) (kind : ErrorKind) (index : Nat) (detail : Int) (s : State) :
    (report i kind index detail s).prices = s.prices := by
  unfold report; dsimp only; split
  · split
    · simp
    · split <;> simp
  · rfl
@[simp] theorem report_compartments (i : BankId) (kind : ErrorKind) (index : Nat) (detail : Int) (s : State) :
    (report i kind index detail s).compartments = s.compartments := by
  unfold report; dsimp only; split
  · split
    · simp
    · split <;> simp
  · rfl
@[simp] theorem report_hoses (i : BankId) (kind : ErrorKind) (index : Nat) (detail : Int) (s : State) :
    (report i kind index detail s).hoses = s.hoses := by
  unfold report; dsimp only; split
  · split
    · simp
    · split <;> simp
  · rfl
@[simp] theorem report_field (i : BankId) (kind : ErrorKind) (index : Nat) (detail : Int) (s : State) :
    (report i kind index detail s).field = s.field := by
  unfold report; dsimp only; split
  · split
    · simp
    · split <;> simp
  · rfl
@[simp] theorem report_drivePermit (i : BankId) (kind : ErrorKind) (index : Nat) (detail : Int) (s : State) :
    (report i kind index detail s).drivePermit = s.drivePermit := by
  unfold report; dsimp only; split
  · split
    · simp
    · split <;> simp
  · rfl
@[simp] theorem report_channels (i : BankId) (kind : ErrorKind) (index : Nat) (detail : Int) (s : State) :
    (report i kind index detail s).channels = s.channels := by
  unfold report; dsimp only; split
  · split
    · simp
    · split <;> simp
  · rfl
@[simp] theorem report_store (i : BankId) (kind : ErrorKind) (index : Nat) (detail : Int) (s : State) :
    (report i kind index detail s).store = s.store := by
  unfold report; dsimp only; split
  · split
    · simp
    · split <;> simp
  · rfl
@[simp] theorem report_loads (i : BankId) (kind : ErrorKind) (index : Nat) (detail : Int) (s : State) :
    (report i kind index detail s).loads = s.loads := by
  unfold report; dsimp only; split
  · split
    · simp
    · split <;> simp
  · rfl
@[simp] theorem report_timebase (i : BankId) (kind : ErrorKind) (index : Nat) (detail : Int) (s : State) :
    (report i kind index detail s).timebase = s.timebase := by
  unfold report; dsimp only; split
  · split
    · simp
    · split <;> simp
  · rfl
@[simp] theorem report_supply (i : BankId) (kind : ErrorKind) (index : Nat) (detail : Int) (s : State) :
    (report i kind index detail s).supply = s.supply := by
  unfold report; dsimp only; split
  · split
    · simp
    · split <;> simp
  · rfl
@[simp] theorem report_noticeMask (i : BankId) (kind : ErrorKind) (index : Nat) (detail : Int) (s : State) :
    (report i kind index detail s).noticeMask = s.noticeMask := by
  unfold report; dsimp only; split
  · split
    · simp
    · split <;> simp
  · rfl
@[simp] theorem report_port (i : BankId) (kind : ErrorKind) (index : Nat) (detail : Int) (s : State) :
    (report i kind index detail s).port = s.port := by
  unfold report; dsimp only; split
  · split
    · simp
    · split <;> simp
  · rfl
@[simp] theorem report_pending (i : BankId) (kind : ErrorKind) (index : Nat) (detail : Int) (s : State) :
    (report i kind index detail s).pending = s.pending := by
  unfold report; dsimp only; split
  · split
    · simp
    · split <;> simp
  · rfl

/-! ### ByHose -/

@[simp] theorem ByHose_get_set {α : Type} (v : ByHose α) (i : HoseId) (a : α) : (v.set i a).get i = a := by cases i <;> rfl
theorem ByHose_get_set_ne {α : Type} (v : ByHose α) (i j : HoseId) (a : α) (h : j ≠ i) : (v.set i a).get j = v.get j := by
  cases i <;> cases j <;> first | rfl | exact absurd rfl h
theorem ByHose_get_set_cases {α : Type} (v : ByHose α) (i j : HoseId) (a : α) :
    (v.set i a).get j = if j = i then a else v.get j := by cases i <;> cases j <;> rfl
@[simp] theorem ByHose_set_set {α : Type} (v : ByHose α) (i : HoseId) (a b : α) : (v.set i a).set i b = v.set i b := by
  cases i <;> rfl
@[simp] theorem ByHose_set_get {α : Type} (v : ByHose α) (i : HoseId) : v.set i (v.get i) = v := by cases i <;> rfl
@[simp] theorem ByHose_get_all {α : Type} (i : HoseId) (a : α) : (ByHose.all a).get i = a := by cases i <;> rfl
theorem ByHose_ext_get {α : Type} (v w : ByHose α) (h : ∀ i, v.get i = w.get i) : v = w := by
  cases v; cases w
  simp only [ByHose.mk.injEq]
  exact ⟨h .h1, h .h2, h .h3⟩

/-! ### ByGrade -/

@[simp] theorem ByGrade_get_set {α : Type} (v : ByGrade α) (i : Grade) (a : α) : (v.set i a).get i = a := by cases i <;> rfl
theorem ByGrade_get_set_ne {α : Type} (v : ByGrade α) (i j : Grade) (a : α) (h : j ≠ i) : (v.set i a).get j = v.get j := by
  cases i <;> cases j <;> first | rfl | exact absurd rfl h
theorem ByGrade_get_set_cases {α : Type} (v : ByGrade α) (i j : Grade) (a : α) :
    (v.set i a).get j = if j = i then a else v.get j := by cases i <;> cases j <;> rfl
@[simp] theorem ByGrade_set_set {α : Type} (v : ByGrade α) (i : Grade) (a b : α) : (v.set i a).set i b = v.set i b := by
  cases i <;> rfl
@[simp] theorem ByGrade_set_get {α : Type} (v : ByGrade α) (i : Grade) : v.set i (v.get i) = v := by cases i <;> rfl
@[simp] theorem ByGrade_get_all {α : Type} (i : Grade) (a : α) : (ByGrade.all a).get i = a := by cases i <;> rfl
theorem ByGrade_ext_get {α : Type} (v w : ByGrade α) (h : ∀ i, v.get i = w.get i) : v = w := by
  cases v; cases w
  simp only [ByGrade.mk.injEq]
  exact ⟨h .g1, h .g2, h .g3⟩

/-! ### ByFour -/

@[simp] theorem ByFour_get_set {α : Type} (v : ByFour α) (i : Four) (a : α) : (v.set i a).get i = a := by cases i <;> rfl
theorem ByFour_get_set_ne {α : Type} (v : ByFour α) (i j : Four) (a : α) (h : j ≠ i) : (v.set i a).get j = v.get j := by
  cases i <;> cases j <;> first | rfl | exact absurd rfl h
theorem ByFour_get_set_cases {α : Type} (v : ByFour α) (i j : Four) (a : α) :
    (v.set i a).get j = if j = i then a else v.get j := by cases i <;> cases j <;> rfl
@[simp] theorem ByFour_set_set {α : Type} (v : ByFour α) (i : Four) (a b : α) : (v.set i a).set i b = v.set i b := by
  cases i <;> rfl
@[simp] theorem ByFour_set_get {α : Type} (v : ByFour α) (i : Four) : v.set i (v.get i) = v := by cases i <;> rfl
@[simp] theorem ByFour_get_all {α : Type} (i : Four) (a : α) : (ByFour.all a).get i = a := by cases i <;> rfl
theorem ByFour_ext_get {α : Type} (v w : ByFour α) (h : ∀ i, v.get i = w.get i) : v = w := by
  cases v; cases w
  simp only [ByFour.mk.injEq]
  exact ⟨h .one, h .two, h .three, h .four⟩

@[simp] theorem ByHose_get_map {α β : Type} (f : α → β) (v : ByHose α) (i : HoseId) : (v.map f).get i = f (v.get i) := by
  cases i <;> rfl
@[simp] theorem ByFour_get_map {α β : Type} (f : α → β) (v : ByFour α) (i : Four) : (v.map f).get i = f (v.get i) := by
  cases i <;> rfl

end Sys2Proof.Machine
end

