-- ==== Sys2Proof/Laws/Tables.lean ====
section
/-! SUPPORT. The laws of the sparse tables: what a slot reads after a write or an erasure, that both keep the canonical
form, and what a search finds. -/

namespace Sys2Proof.Machine

variable {α : Type}

/-! ### Reading a slot -/

/-- After a write the slot reads what was written, and every other slot reads as before. -/
theorem tableGet_set (t : Table α) (i j : Nat) (a : α) :
    tableGet (tableSet t i a) j = if j = i then some a else tableGet t j := by
  induction t with
  | nil => by_cases h : j = i <;> simp [tableSet, tableGet, h]
  | cons x r ih =>
    obtain ⟨k, x⟩ := x
    simp only [tableSet]
    split_ifs <;> simp_all [tableGet]

/-- After an erasure the slot is FREE, and every other slot reads as before. -/
theorem tableGet_erase (t : Table α) (i j : Nat) :
    tableGet (tableErase t i) j = if j = i then none else tableGet t j := by
  induction t with
  | nil => simp [tableErase, tableGet]
  | cons x r ih =>
    obtain ⟨k, x⟩ := x
    simp only [tableErase]
    split_ifs <;> simp_all [tableGet]

/-- Two writes of one slot are the second. -/
@[simp] theorem tableSet_set (t : Table α) (i : Nat) (a b : α) : tableSet (tableSet t i a) i b = tableSet t i b := by
  induction t with
  | nil => simp [tableSet]
  | cons x r ih =>
    obtain ⟨k, x⟩ := x
    simp only [tableSet]
    split_ifs <;> simp_all [tableSet]

/-! ### The canonical form -/

/-- Rising slot numbers, as a property of every pair of entries. -/
theorem tableRising_iff (t : Table α) : tableRising t = true ↔ t.Pairwise (fun p q => p.1 < q.1) := by
  induction t with
  | nil => simp [tableRising]
  | cons x r ih =>
    obtain ⟨i, a⟩ := x
    cases r with
    | nil => simp [tableRising]
    | cons y r =>
      obtain ⟨j, b⟩ := y
      simp only [tableRising, Bool.and_eq_true, decide_eq_true_eq, ih]
      simp only [List.pairwise_cons, List.mem_cons, forall_eq_or_imp]
      constructor
      · rintro ⟨h, h1, h2⟩
        exact ⟨⟨h, fun q hq => lt_trans h (h1 q hq)⟩, h1, h2⟩
      · rintro ⟨⟨h, -⟩, h1, h2⟩
        exact ⟨h, h1, h2⟩

/-- Every entry of a table after a write is the one written or an entry from before. -/
theorem mem_tableSet {t : Table α} {i : Nat} {a : α} {p : Nat × α} (h : p ∈ tableSet t i a) :
    p = (i, a) ∨ p ∈ t := by
  induction t with
  | nil => simpa [tableSet] using h
  | cons x r ih =>
    obtain ⟨k, x⟩ := x
    simp only [tableSet] at h
    split_ifs at h <;> simp_all <;> tauto

/-- Every entry of a table after an erasure is an entry from before, of another slot. -/
theorem mem_tableErase {t : Table α} {i : Nat} {p : Nat × α} (h : p ∈ tableErase t i) : p ∈ t ∧ p.1 ≠ i := by
  induction t with
  | nil => simp [tableErase] at h
  | cons x r ih =>
    obtain ⟨k, x⟩ := x
    simp only [tableErase] at h
    split_ifs at h with hk
    · exact ⟨List.mem_cons_of_mem _ (ih h).1, (ih h).2⟩
    · rcases List.mem_cons.1 h with rfl | h
      · exact ⟨List.mem_cons_self, fun e => hk e.symm⟩
      · exact ⟨List.mem_cons_of_mem _ (ih h).1, (ih h).2⟩

theorem tableRising_set {t : Table α} (i : Nat) (a : α) (h : tableRising t = true) :
    tableRising (tableSet t i a) = true := by
  rw [tableRising_iff] at *
  induction t with
  | nil => simp [tableSet]
  | cons x r ih =>
    obtain ⟨k, x⟩ := x
    simp only [List.pairwise_cons] at h
    simp only [tableSet]
    split_ifs with h1 h2
    · simp only [List.pairwise_cons, List.mem_cons, forall_eq_or_imp]
      exact ⟨⟨h1, fun q hq => lt_trans h1 (h.1 q hq)⟩, h.1, h.2⟩
    · subst h2
      exact List.pairwise_cons.2 ⟨h.1, h.2⟩
    · refine List.pairwise_cons.2 ⟨fun q hq => ?_, ih h.2⟩
      rcases mem_tableSet hq with rfl | hq
      · show k < i
        omega
      · exact h.1 q hq

theorem tableRising_erase {t : Table α} (i : Nat) (h : tableRising t = true) :
    tableRising (tableErase t i) = true := by
  rw [tableRising_iff] at *
  induction t with
  | nil => simp [tableErase]
  | cons x r ih =>
    obtain ⟨k, x⟩ := x
    simp only [List.pairwise_cons] at h
    simp only [tableErase]
    split_ifs
    · exact ih h.2
    · exact List.pairwise_cons.2 ⟨fun q hq => h.1 q (mem_tableErase hq).1, ih h.2⟩

theorem tableRising_map {t : Table α} (f : α → α) (h : tableRising t = true) :
    tableRising (t.map (fun p => (p.1, f p.2))) = true := by
  rw [tableRising_iff] at *
  exact List.pairwise_map.2 (h.imp (fun h => h))

/-- A write of a slot that exists keeps a table well formed. -/
theorem tableWf_set {size i : Nat} {t : Table α} (a : α) (hi : i < size) (h : tableWf size t = true) :
    tableWf size (tableSet t i a) = true := by
  simp only [tableWf, Bool.and_eq_true, List.all_eq_true, decide_eq_true_eq] at *
  refine ⟨tableRising_set i a h.1, fun p hp => ?_⟩
  rcases mem_tableSet hp with rfl | hp
  · exact hi
  · exact h.2 p hp

theorem tableWf_erase {size : Nat} {t : Table α} (i : Nat) (h : tableWf size t = true) :
    tableWf size (tableErase t i) = true := by
  simp only [tableWf, Bool.and_eq_true, List.all_eq_true, decide_eq_true_eq] at *
  exact ⟨tableRising_erase i h.1, fun p hp => h.2 p (mem_tableErase hp).1⟩

theorem tableWf_map {size : Nat} {t : Table α} (f : α → α) (h : tableWf size t = true) :
    tableWf size (t.map (fun p => (p.1, f p.2))) = true := by
  simp only [tableWf, Bool.and_eq_true, List.all_eq_true, decide_eq_true_eq] at *
  refine ⟨tableRising_map f h.1, fun p hp => ?_⟩
  obtain ⟨q, hq, rfl⟩ := List.mem_map.1 hp
  exact h.2 q hq

/-- A slot that is not FREE is one of the table's entries. -/
theorem mem_of_tableGet {t : Table α} {i : Nat} {a : α} (h : tableGet t i = some a) : (i, a) ∈ t := by
  induction t with
  | nil => simp [tableGet] at h
  | cons x r ih =>
    obtain ⟨k, x⟩ := x
    simp only [tableGet] at h
    split_ifs at h with hk
    · obtain rfl := Option.some.inj h
      subst hk
      exact List.mem_cons_self
    · exact List.mem_cons_of_mem _ (ih h)

/-- In a rising table every entry is what its slot reads. -/
theorem tableGet_of_mem {t : Table α} {i : Nat} {a : α} (hr : tableRising t = true) (h : (i, a) ∈ t) :
    tableGet t i = some a := by
  rw [tableRising_iff] at hr
  induction t with
  | nil => simp at h
  | cons x r ih =>
    obtain ⟨k, x⟩ := x
    simp only [List.pairwise_cons] at hr
    rcases List.mem_cons.1 h with h | h
    · obtain ⟨rfl, rfl⟩ := Prod.mk.inj h
      simp [tableGet]
    · have := hr.1 _ h
      have hne : i ≠ k := by
        simp only at this
        omega
      simpa [tableGet, hne] using ih hr.2 h

/-- A slot that is not FREE of a well-formed table exists. -/
theorem lt_of_tableGet {size i : Nat} {t : Table α} {a : α} (hw : tableWf size t = true)
    (h : tableGet t i = some a) : i < size := by
  simp only [tableWf, Bool.and_eq_true, List.all_eq_true, decide_eq_true_eq] at hw
  exact hw.2 _ (mem_of_tableGet h)

/-! ### Searches -/

theorem freeFrom_spec {t : Table α} (fuel k i : Nat) (h : freeFrom t k fuel = some i) :
    k ≤ i ∧ i < k + fuel ∧ tableGet t i = none := by
  induction fuel generalizing k with
  | zero => simp [freeFrom] at h
  | succ n ih =>
    simp only [freeFrom] at h
    split_ifs at h with hk
    · obtain rfl := Option.some.inj h
      exact ⟨le_refl _, by omega, Option.isNone_iff_eq_none.1 hk⟩
    · obtain ⟨h1, h2, h3⟩ := ih _ h
      exact ⟨by omega, by omega, h3⟩

/-- The lowest-numbered FREE slot exists and is FREE. -/
theorem lowestFree_spec {t : Table α} {size i : Nat} (h : lowestFree t size = some i) :
    i < size ∧ tableGet t i = none := by
  obtain ⟨-, h2, h3⟩ := freeFrom_spec size 0 i h
  exact ⟨by omega, h3⟩

/-- A search finds an entry of the table that meets the test. -/
theorem tableFind_some {p : Nat → α → Bool} {t : Table α} {i : Nat} {a : α} (h : tableFind p t = some (i, a)) :
    (i, a) ∈ t ∧ p i a = true := by
  induction t with
  | nil => simp [tableFind] at h
  | cons x r ih =>
    obtain ⟨k, x⟩ := x
    simp only [tableFind] at h
    split_ifs at h with hk
    · obtain ⟨rfl, rfl⟩ := Prod.mk.inj (Option.some.inj h)
      exact ⟨List.mem_cons_self, hk⟩
    · exact ⟨List.mem_cons_of_mem _ (ih h).1, (ih h).2⟩

/-- A search that finds nothing met no entry that passes. -/
theorem tableFind_none {p : Nat → α → Bool} {t : Table α} : tableFind p t = none ↔ ∀ x ∈ t, p x.1 x.2 = false := by
  induction t with
  | nil => simp [tableFind]
  | cons x r ih => obtain ⟨i, a⟩ := x; by_cases h : p i a <;> simp [tableFind, h, ih]

theorem tableFind_isSome (p : Nat → α → Bool) (t : Table α) :
    (tableFind p t).isSome = t.any (fun x => p x.1 x.2) := by
  induction t with
  | nil => rfl
  | cons x r ih => obtain ⟨i, a⟩ := x; by_cases h : p i a <;> simp [tableFind, h, ih]

/-- Where nothing passed before, a search after a write that passes finds what was written. -/
theorem tableFind_set {p : Nat → α → Bool} {t : Table α} {i : Nat} {a : α} (hn : tableFind p t = none)
    (ha : p i a = true) : tableFind p (tableSet t i a) = some (i, a) := by
  induction t with
  | nil => simp [tableSet, tableFind, ha]
  | cons x r ih =>
    obtain ⟨k, x⟩ := x
    simp only [tableFind] at hn
    split_ifs at hn with hk
    simp only [tableSet]
    split_ifs with h1 h2
    · simp [tableFind, ha]
    · simp [tableFind, ha]
    · simp [tableFind, hk, ih hn]

end Sys2Proof.Machine
end

