-- ==== Sys2Proof/Laws/Port.lean ====
section
/-! SUPPORT. What a row does, once: a host command at a controller that is ready for it, an event at a running
controller, a switch that moves, a timer that expires; and the numbers that name hoses, meters, compartments and banks. -/

namespace Sys2Proof.Machine

/-! ### Rows -/

/-- A ready controller executes a host command whole and evaluates DRIVE PERMIT. -/
theorem hostRow_ready {c : Instr} {body : State → Reply} {s : State} (h : Ready s) :
    hostRow c body s = .next (evaluatePermit (deliver c (body s))) := by
  simp [hostRow, hostStep, h.1, h.2]

/-- A host command at a ready controller that answers at once completes. -/
theorem hostRow_answers {c : Instr} {body : State → Reply} {s t : State} {st : Status} {payload : List Byte}
    (h : Ready s) (hb : body s = (t, some ⟨st, payload⟩)) : hostRow c body s = completes c st payload t := by
  simp [hostRow_ready h, hb, deliver, completes, completed]

/-- A host command at a ready controller whose answer waits. -/
theorem hostRow_waits {c : Instr} {body : State → Reply} {s t : State} (h : Ready s) (hb : body s = (t, none)) :
    hostRow c body s = happens t := by
  simp [hostRow_ready h, hb, deliver, happens]

/-- A host command while a store write holds the port leaves only the overrun mark (R155, R190). -/
theorem hostRow_writing {c : Instr} {body : State → Reply} {s : State} {w : StoreWrite}
    (h : s.supply.power = .running) (hw : s.store.write = some w) :
    hostRow c body s = .next { s with port := { s.port with overrun := true } } := by
  simp [hostRow, hostStep, h, hw, setPort]

/-- A controller that does not run takes no host command. -/
theorem hostRow_stopped {c : Instr} {body : State → Reply} {s : State} (h : s.supply.power ≠ .running) :
    hostRow c body s = .next s := by
  cases hp : s.supply.power <;> simp_all [hostRow, hostStep]

theorem fieldRow_running {act : State → State} {s : State} (h : s.supply.power = .running) :
    fieldRow act s = happens (act s) := by
  simp [fieldRow, fieldStep, h, happens]

theorem fieldRow_stopped {act : State → State} {s : State} (h : s.supply.power ≠ .running) :
    fieldRow act s = .next s := by
  cases hp : s.supply.power <;> simp_all [fieldRow, fieldStep]

/-- A level the input already has is no event. -/
theorem switchStep_same {b : Bool} {place : Bool → Switches → Switches} {act : State → State} {s : State} :
    switchStep b b place act s = s := by
  simp [switchStep]

/-- A change of a switch at a running controller: level placed, flag set, event delivered. -/
theorem switchStep_running {old new : Bool} {place : Bool → Switches → Switches} {act : State → State} {s : State}
    (h : old ≠ new) (hr : s.supply.power = .running) :
    switchStep old new place act s = evaluatePermit
      (act { s with
        field := { s.field with
          levels := place new s.field.levels, changed := place true s.field.changed } }) := by
  simp [switchStep, h, hr, setLevels, setChanged]

@[simp] theorem expire_none (act : State → State) (s : State) : expire none act s = s := rfl
@[simp] theorem expire_some (t : Nat) (act : State → State) (s : State) :
    expire (some t) act s = act (reachInstant t s) := rfl

/-! ### Checks in order -/

@[simp] theorem firstFailing_nil {α : Type} : firstFailing ([] : List (Bool × α)) = none := rfl
@[simp] theorem firstFailing_cons {α : Type} (b : Bool) (x : α) (r : List (Bool × α)) :
    firstFailing ((b, x) :: r) = if b then firstFailing r else some x := by cases b <;> rfl

/-- Every check holds. -/
theorem checked_holds {c : Instr} {checks : List (Bool × Status)} {s t : State} {st : Status} {payload : List Byte}
    (h : firstFailing checks = none) : checked c checks s st payload t = completes c st payload t := by
  simp [checked, h]

/-- A check fails. -/
theorem checked_fails {c : Instr} {checks : List (Bool × Status)} {s t : State} {st e : Status} {payload : List Byte}
    (h : firstFailing checks = some e) : checked c checks s st payload t = completes c e [] s := by
  simp [checked, h]

/-! ### Numbers -/

@[simp] theorem hoseOf_number (h : HoseId) : hoseOf h.number = some h := by cases h <;> rfl
@[simp] theorem fourOf_number (i : Four) : fourOf i.number = some i := by cases i <;> rfl
@[simp] theorem bankOf_number (b : BankId) : bankOf (bankNumber b) = some b := by
  cases b with
  | reader h => cases h <;> rfl
  | hose h => cases h <;> rfl
  | meter m => cases m <;> rfl
  | gauge => rfl
  | inlet => rfl
  | table => rfl
@[simp] theorem meterHose_meter (h : HoseId) : meterHose h.meter = some h := by cases h <;> rfl

/-- A number that names a hose is that hose's number. -/
theorem hoseOf_some {n : Nat} {h : HoseId} (e : hoseOf n = some h) : n = h.number := by
  unfold hoseOf at e
  split at e <;> first | cases e; rfl | cases e
theorem fourOf_some {n : Nat} {i : Four} (e : fourOf n = some i) : n = i.number := by
  unfold fourOf at e
  split at e <;> first | cases e; rfl | cases e

/-! ### Fault banks -/

@[simp] theorem bankGet_set (b : Banks) (i : BankId) (k : Bank) : bankGet (bankSet b i k) i = k := by
  cases i <;> simp [bankGet, bankSet]
theorem bankGet_set_ne (b : Banks) (i j : BankId) (k : Bank) (h : j ≠ i) :
    bankGet (bankSet b i k) j = bankGet b j := by
  cases i <;> cases j <;> simp_all [bankGet, bankSet, ByHose_get_set_ne, ByFour_get_set_ne]

/-- R185 whole: what a report leaves, by the bank it finds. -/
theorem report_cases (i : BankId) (kind : ErrorKind) (index : Nat) (detail : Int) (s : State) :
    let k := bankGet s.banks i
    let f : FaultRecord :=
      { severity := severityOf kind, kind := kind, index := index, detail := clipDetail detail
        time := s.timebase.count }
    (kindEnabled i k kind = false ∧ report i kind index detail s = s)
    ∨ (kindEnabled i k kind = true ∧ k.record = none
      ∧ report i kind index detail s = raise (.fault i) (setBank i { k with record := some f } s))
    ∨ (kindEnabled i k kind = true ∧ (∃ old, k.record = some old ∧ severityCode old.severity < severityCode f.severity)
      ∧ report i kind index detail s = raise (.fault i) (setBank i { k with overflow := true, record := some f } s))
    ∨ (kindEnabled i k kind = true ∧ (∃ old, k.record = some old ∧ severityCode f.severity ≤ severityCode old.severity)
      ∧ report i kind index detail s = setBank i { k with overflow := true } s) := by
  dsimp only
  unfold report
  by_cases h : kindEnabled i (bankGet s.banks i) kind = true
  · cases hr : (bankGet s.banks i).record with
    | none => simp [h, hr]
    | some old =>
      by_cases hs : severityCode old.severity < severityCode (severityOf kind)
      · simp [h, hr, hs]
      · refine .inr (.inr (.inr ⟨h, ⟨old, rfl, by omega⟩, ?_⟩))
        simp [h, hr, hs]
  · simp [h]

/-! ### DRIVE PERMIT -/

/-- Evaluating twice is evaluating once. -/
@[simp] theorem evaluatePermit_idem (s : State) : evaluatePermit (evaluatePermit s) = evaluatePermit s := rfl

end Sys2Proof.Machine
end

