-- ==== Sys2Proof/Laws/Sessions.lean ====
section
/-! SUPPORT. The pair of a tag and a nozzle off hook (R79): when an authorisation starts, and what taking a tag event does. -/

namespace Sys2Proof.Machine

/-- The hose states from which R79 starts a tag-initiated authorisation. -/
abbrev startsFrom : List HoseState := [.idle, .complete, .locked, .outOfService]

theorem setPaired_eq (id : HoseId) (tag : Option Nat) (s : State) :
    setPaired id tag s = setHose id { s.hoses.get id with paired := tag } s := rfl

theorem startAuthorisation_starts {id : HoseId} {tag : Nat} {s : State} (present : presentTag id s = some tag)
    (starts : startsFrom.contains (s.hoses.get id).state = true) : startAuthorisation id s = authorisePair id tag s := by
  unfold startAuthorisation
  rw [present]
  generalize (s.hoses.get id).state = st at starts ⊢
  cases st <;> first | rfl | cases starts

theorem startAuthorisation_rests {id : HoseId} {s : State}
    (rests : presentTag id s = none ∨ startsFrom.contains (s.hoses.get id).state = false) : startAuthorisation id s = s := by
  unfold startAuthorisation
  rcases rests with h | h
  · rw [h]
  · cases presentTag id s with
    | none => rfl
    | some tag =>
      generalize (s.hoses.get id).state = st at h ⊢
      cases st <;> first | rfl | cases h

/-- Taking a tag event changes the port's list of raised events and the pair alone. -/
theorem takeTagEvent_eq (id : HoseId) (v : TagEvent) (s : State) :
    ∃ events, takeTagEvent id v s =
      setReader id { s.readers.get id with events := events } (setPaired id (pairAfter v (s.hoses.get id).paired) s) := by
  have same : setReader id (s.readers.get id) (setPaired id (pairAfter v (s.hoses.get id).paired) s)
      = setPaired id (pairAfter v (s.hoses.get id).paired) s := by simp [setReader, setPaired, setHose]
  unfold takeTagEvent
  simp only [setPaired_eq, setHose_readers] at same ⊢
  cases h : (s.readers.get id).events with
  | nil => exact ⟨(s.readers.get id).events, same.symm⟩
  | cons e rest =>
    by_cases hv : e = v
    · exact ⟨rest, by simp [hv]⟩
    · exact ⟨(s.readers.get id).events, by simpa [hv] using same.symm⟩

end Sys2Proof.Machine
end

