-- ==== Sys2Proof/Tests/Slice0.lean ====
section
/-! SUPPORT. Tests: one step of each command on a small site, with values from the worked sequences and the rules of
spec/; an ill-formed command for every check of WellFormed; and for every statement with hypotheses a state and operands
that meet them. -/

set_option Elab.async false

namespace Sys2Proof.Tests

open Sys2Proof Sys2Proof.Machine

/-! ### The site of the worked sequences -/

/-- The state after one command. -/
def after (c : Instr) (s : State) : State :=
  match exec c s with
  | .next t => t
  | .fault _ => s
  | .refused _ => s

/-- What one host command is answered. -/
def answered (c : Instr) (s : State) : Option Answer := (after c s).port.answer

def ok (payload : List Byte) : Option Answer := some ⟨.ok, payload⟩

def status (c : Instr) (s : State) : Option Status := (answered c s).map Answer.status

/-- The first `n` bytes of an answer's payload. -/
def head (n : Nat) (c : Instr) (s : State) : Option (List Byte) := (answered c s).map (fun a => a.payload.take n)

/-- The tags of machine slot 52 (5.7). -/
def fuelTag : Nat := 0x00002C0034F1
def fluidTag : Nat := 0x00002C0034F2
/-- The tag of the worked sequence of 1.4. -/
def rangeTag : Nat := 0x00005A123456

def fuelTank : Tank := { tag := fuelTag, grades := ⟨true, true, false⟩, capacity := 1500, ceiling := some 600 }
def fluidTank : Tank := { tag := fluidTag, grades := ⟨false, false, true⟩, capacity := 80, ceiling := none }

def machine : MachineRecord := machineStamp
  { state := .active, number := 30118, account := 3, manualPermitted := true, fuel := some fuelTank,
    fluid := some fluidTank, allowance := 1200, used := 780400000, held := 0, overrun := 0, fuelLink := none,
    fluidLink := none, fillCount := 6, lastFill := none, checkWord := 0 }

def noFigures : PeriodFigures := { net := ByGrade.all 0, charges := 0, fills := 0 }

/-- Account slot 3 (3.14), with the statement of period 13 present and released. -/
def account : AccountRecord := accountStamp
  { state := .opened, number := 501, tier := .two, limit := 50000000, balance := 30000000, held := 0,
    openSessions := 0, references := 1, period := 14,
    current := { net := ⟨2000000000, 0, 0⟩, charges := 37300000, fills := 4 },
    previous := some { period := 13, closeTime := 9, figures := noFigures, unread := false }, checkWord := 0 }

/-- Account slot 12 (5.6). -/
def account12 : AccountRecord := accountStamp
  { state := .opened, number := 512, tier := .two, limit := 50000000, balance := 10000000, held := 0,
    openSessions := 0, references := 1, period := 1, current := noFigures, previous := none, checkWord := 0 }

def stock (g : Grade) (capacity base dispensed threshold : Nat) (strap : Option (List StrapPoint)) : Compartment :=
  { Compartment.cold with
    state := .inService, grade := some g, capacity := capacity, book := (base : Int) - dispensed, base := base
    dispensed := dispensed, threshold := threshold, strap := strap }

def strapPoints : List StrapPoint := [{ level := 12000, volume := 6100 }, { level := 13000, volume := 6620 }]

def meter : MeterRecord :=
  { pulseVolume := 10000, firstPoint := { flow := 400, factor := 65667 },
    morePoints := [{ flow := 800, factor := 65405 }], calibrated := true, changes := 6 }

def range (base mask : Nat) (policy : Policy) (account : Nat) (grades : GradeSet) (limit : Nat) : RangeEntry :=
  { enabled := true, base := base, mask := mask, policy := policy, account := account, grades := grades, limit := limit }

def presence (tag : Nat) : Presence := { tag := tag, quality := 82, firstSeen := 7, lastSeen := 7, expiry := 1750 }

/-- The site: machine slot 52, accounts 3 and 12, the range entries 0 to 2 of 1.4, four compartments in service, the
metrology of 8.8, the clock of 11.3, H1's nozzle lifted with the machine's fuel tag present. -/
def site : State :=
  { State.reset with
    machines := [(52, machine)]
    tagIndex := [(fuelTag, { slot := 52, tank := .fuel }), (fluidTag, { slot := 52, tank := .fluid })]
    ranges := #v[range 0x5A000000 0xFFFFFF000000 .allow 12 ⟨true, true, false⟩ 400,
      range 0x5A100000 0xFFFFFFF00000 .refer 0 ⟨true, true, false⟩ 20000,
      range 0x5A000000 0xFFFFFF000000 .allow 12 ⟨false, true, false⟩ 200,
      RangeEntry.cold, RangeEntry.cold, RangeEntry.cold, RangeEntry.cold, RangeEntry.cold]
    accounts := [(3, account), (12, account12)]
    prices := { State.reset.prices with two := ⟨18650, 17900, 9200⟩ }
    compartments :=
      { one := stock .g2 8000 350000000 0 0 none
        two := stock .g1 8000 5000000000 1800000000 2600 none
        three := stock .g2 8000 2100000000 0 0 (some strapPoints)
        four := stock .g3 500 200000000 0 0 none }
    hoses :=
      { State.reset.hoses with
        h1 := { Hose.cold .h1 with setup := { HoseSetup.cold .h1 with preference := [.two, .one, .three, .four] } } }
    readers :=
      { State.reset.readers with
        h1 := { Reader.cold 0 with condition := .live, present := some (presence fuelTag) } }
    store :=
      { MetrologyStore.first with meters := ByFour.all meter, grades := ByGrade.all { alpha := 830, fallback := 150 } }
    field :=
      { State.reset.field with levels := { Switches.parked with offHook := ⟨true, false, false⟩, sealClosed := true } }
    timebase := { Timebase.cold with count := 1000033600, clockSet := true, rolloverSecond := 21600, lastCounted := 1000033600 } }

/-- The session of 8.8 at H1: hold 450 L of G1 from compartment 2 on account 3, set point 700 L/min. -/
def fill : Session :=
  { number := 1, kind := .tag, tag := some fuelTag, machine := some (52, .fuel), account := 3, compartment := .two,
    grade := .g1, price := 18650, hold := 450, moneyHold := 8392500, setPoint := 700, gross := 0, net := 0,
    overrun := 0, charge := none, pauseCount := 0, pauseReason := none, saturated := false, uncompensated := false,
    stopCause := none, authorised := 1000033600, started := none, ended := none, due := false, collected := false }

def running (valve : Bool) : Outputs :=
  { pump := true, manifold := some .two, mainValve := valve, staged := if valve then 400 else 0, active := 0, reel := false }

/-- Session `x` open at H1 in state `st`, with its holds on machine, account and compartment and its timer. -/
def sessionAt (st : HoseState) (x : Session) : State :=
  { site with
    machines := [(52, machineStamp { machine with held := x.hold * 1000000, fuelLink := some .h1 })]
    accounts := [(3, accountStamp { account with held := x.moneyHold, openSessions := 1 }), (12, account12)]
    compartments :=
      { site.compartments with
        two := { site.compartments.two with committed := x.hold * 1000000 - x.net } }
    hoses :=
      { site.hoses with
        h1 :=
          { site.hoses.h1 with
            state := st, outputs := running (st == .flowing || st == .slowing), lastSource := some .two
            session := some x, lastNumber := x.number
            readyTimer := if st == .ready then some 120000 else none
            resumeTimer := if st == .paused then some 60000 else none
            settleTimer := if st == .stopping then some 5000 else none } } }

/-- A request of `tag` waiting at H1. -/
def referredAt (tag : Nat) : State :=
  { site with
    hoses := { site.hoses with
      h1 := { site.hoses.h1 with state := .referred, waiting := some { tag := tag, entry := some 1 }, referTimer := some 30000 } }
    notices := [.refer .h1, .restarted] }

/-- H1 in state `st`, without a request, a session or a run. -/
def hoseAt (st : HoseState) : State := { site with hoses := { site.hoses with h1 := { site.hoses.h1 with state := st } } }

/-- The run of 9.4 at H1. -/
def run : Run :=
  { compartment := .two, grade := .g1, setPoint := 460, nominal := 500, indicated := 500412000, flowingTime := 65300,
    flowOpened := none, flowEnd := some .target, settled := true, outcome := .running, result := none }

def runAt (st : HoseState) (r : Run) : State :=
  { site with
    hoses := { site.hoses with
      h1 :=
        { site.hoses.h1 with
          state := st, run := some r, outputs := running (st == .proveFlowing), lastSource := some .two
          readyTimer := if st == .proveReady then some 120000 else none
          settleTimer := if st == .proveHeld && !r.settled then some 5000 else none } } }

/-- The load order of 10.8: 5,000 L of G2 into compartment 3. -/
def order (st : LoadState) : LoadOrder :=
  { state := st, compartment := .three, grade := .g2, expected := 5000, docket := List.replicate 16 0x41,
    gaugeBefore := none, gross := 0, net := 0, gaugeAfter := none, docketVariance := none, gaugeVariance := none,
    endCause := none, created := 1000033600, armed := none, flowStart := none, flowEnd := none, completed := none }

/-- Order `o` in slot 0, its compartment LOADING while it is active, with the timer of its state. -/
def orderAt (o : LoadOrder) : State :=
  { site with
    compartments := { site.compartments with
      three := { site.compartments.three with state := if activeState o.state then .loading else .inService } }
    loads := { site.loads with
      orders := [(0, o)], valveOpen := o.state == .loading, ullageLimit := 7760000000, beforeEnded := true
      armTimer := if o.state == .armed then some 900000 else none
      idleTimer := if o.state == .loading then some 30000 else none
      settleTimer := if o.state == .settling then some 120000 else none
      watch := if o.state == .settling then some 0 else none } }

/-- Compartment `c` without a strapping table. -/
def unstrapped (s : State) : State :=
  { s with compartments := { s.compartments with three := { s.compartments.three with strap := none } } }

/-- A fault of the bank. -/
def faulted (i : BankId) (kind : ErrorKind) (s : State) : State := report i kind (bankNumber i) 0 s

/-- Only readers' FIFOs and frames differ from the site. -/
def readerAt (r : Reader) : State := { site with readers := { site.readers with h1 := r } }

def entry (data : Byte) : FifoEntry := { data := data, condition := .good, events := [] }

/-- A record of a store write. -/
def writing (w : StoreWrite) (s : State) : State := { s with store := { s.store with write := some w } }

/-! ### Machines, tags and ranges (Chapter 1) -/

/-- A second machine: one fuel tank with a tag of its own. -/
def newMachine : MachineFields :=
  { number := 40211, account := 3, manualPermitted := false, allowance := 1200,
    fuel := some { fuelTank with tag := 0x2C0017A3 }, fluid := none }

/-- The host-set fields of slot 52 as they stand. -/
def sameFields : MachineFields :=
  { number := 30118, account := 3, manualPermitted := true, allowance := 1200, fuel := some fuelTank, fluid := some fluidTank }

def machineAt52 (s : State) : Option MachineRecord := tableGet s.machines 52
def accountIn (slot : Nat) (s : State) : Option AccountRecord := tableGet s.accounts slot
def references (slot : Nat) (s : State) : Option Nat := (accountIn slot s).map AccountRecord.references

/-- Slot 52 with a check word that does not agree. -/
def spoiled : State := { site with machines := [(52, { machine with checkWord := machine.checkWord + 1 })] }

theorem test_machineInstall_takes_the_lowest_free_slot :
    answered (.machineInstall newMachine) site = ok [0, 0]
    ∧ references 3 (after (.machineInstall newMachine) site) = some 2
    ∧ tableGet (after (.machineInstall newMachine) site).tagIndex 0x2C0017A3 = some { slot := 0, tank := .fuel } := by
  decide +kernel

theorem test_machineInstall_refuses_a_tag_in_use :
    status (.machineInstall { newMachine with fuel := some fuelTank }) site = some .duplicateTag := by decide +kernel

theorem test_machineAmendChange_below_what_is_committed :
    status (.machineAmendChange 52 { sameFields with allowance := 780 }) site = some .belowCommitted
    ∧ (machineAt52 (after (.machineAmendChange 52 { sameFields with allowance := 781 }) site)).map MachineRecord.used
      = some 780400000 := by decide +kernel

theorem test_machineAmendRewrite_rebuilds_held_and_links :
    (machineAt52 (after (.machineAmendRewrite 52 sameFields 5000000 1000000 3) (sessionAt .flowing fill))).map
      (fun m => (m.used, m.overrun, m.held, m.fuelLink, m.fillCount)) = some (5000000, 1000000, 450000000, some .h1, 3) := by
  decide +kernel

theorem test_machineRead_quarantines_a_damaged_record :
    status (.machineRead 52) spoiled = some .corrupt
    ∧ (machineAt52 (after (.machineRead 52) spoiled)).map MachineRecord.state = some .quarantined
    ∧ (after (.machineRead 52) spoiled).banks.table.record.map FaultRecord.kind = some .recordCheck := by decide +kernel

theorem test_machineFind_by_tag_names_slot_and_tank : head 3 (.machineFind (.tag fluidTag)) site = some [52, 0, 1] := by
  decide +kernel

theorem test_machineSuspend_and_reinstate :
    (machineAt52 (after (.machineSuspend 52) site)).map MachineRecord.state = some .suspended
    ∧ (machineAt52 (after (.machineReinstate 52) (after (.machineSuspend 52) site))) = some machine := by decide +kernel

/-- The second row of retirement in 1.9: a linked record becomes RETIRING and the close frees it. -/
theorem test_machineRetire_waits_for_the_link :
    answered (.machineRetire 52) (sessionAt .ready fill) = ok [3]
    ∧ machineAt52 (after (.hoseStop 1) (after (.machineRetire 52) (sessionAt .ready fill))) = none
    ∧ references 3 (after (.hoseStop 1) (after (.machineRetire 52) (sessionAt .ready fill))) = some 0 := by decide +kernel

theorem test_machineRetire_frees_at_once :
    answered (.machineRetire 52) site = ok [0] ∧ (after (.machineRetire 52) site).tagIndex = [] := by decide +kernel

/-- The worked sequence of 1.4: REFER of entry 1 wins over ALLOW of entries 0 and 2. -/
theorem test_tagQuery_resolves_to_the_most_restrictive_entry :
    resolve rangeTag site = .range 1 (range 0x5A100000 0xFFFFFFF00000 .refer 0 ⟨true, true, false⟩ 20000)
    ∧ status (.tagQuery rangeTag) site = some .ok ∧ status (.tagQuery 0) site = some .malformed := by decide +kernel

theorem test_rangeWrite_moves_the_reference :
    references 12 (after (.rangeWrite 0 { RangeEntry.cold with enabled := true, policy := .allow, account := 3 }) site) = some 0
    ∧ references 3 (after (.rangeWrite 0 { RangeEntry.cold with enabled := true, policy := .allow, account := 3 }) site)
      = some 2 := by decide +kernel

theorem test_rangeWrite_needs_the_account :
    status (.rangeWrite 7 { RangeEntry.cold with enabled := true, policy := .allow, account := 4 }) site = some .noRecord := by
  decide +kernel

theorem test_rangeRead_ends_at_entry_7 :
    status (.rangeRead 7) site = some .ok ∧ status (.rangeRead 8) site = some .malformed := by decide +kernel

theorem test_defaultPolicySet_takes_no_allow :
    status (.defaultPolicySet .allow) site = some .malformed
    ∧ (after (.defaultPolicySet .refer) site).defaultPolicy = .refer := by decide +kernel

/-! ### Readers (Chapter 2) -/

def reader : Reader := site.readers.h1

theorem test_readerSetup_new_rate_empties_the_fifo :
    ((after (.readerSetup 1 38400 50 1000) (readerAt { reader with fifo := [entry 9] })).readers.h1.fifo,
      (after (.readerSetup 1 19200 50 1000) (readerAt { reader with fifo := [entry 9] })).readers.h1.fifo)
      = ([], [entry 9]) := by decide +kernel

theorem test_readerSetup_is_busy_while_a_session_is_open :
    status (.readerSetup 1 38400 50 1000) (sessionAt .ready fill) = some .busy := by decide +kernel

theorem test_readerStatus_clears_when_asked :
    (after (.readerStatus 1 true) (readerAt { reader with good := 4, damaged := 3, rejected := 2, highWater := 9 })).readers.h1
      = reader := by decide +kernel

/-- 0x43 holds three ones, 0x41 two. -/
theorem test_receiverCharacter_conditions_of_R26 :
    [(0x43, true, true), (0x43, false, true), (0x41, false, true), (0x41, true, true), (0x43, false, false)].map
      (fun p => (after (.receiverCharacter .h1 p.1 ⟨p.2.1, p.2.2⟩) site).readers.h1.fifo.map FifoEntry.condition)
      = [[.good], [.parity], [.good], [.parity], [.framing]] := by decide +kernel

theorem test_receiverCharacter_overrun_marks_the_newest :
    ((after (.receiverCharacter .h1 0x41 ⟨false, true⟩) (readerAt { reader with fifo := List.replicate 32 (entry 1) })).readers.h1.fifo).map
      FifoEntry.condition = List.replicate 31 .good ++ [.overrun] := by decide +kernel

theorem test_lineBreak_leaves_the_silence_timer :
    (after (.lineBreak ⟨.h1, true⟩) (readerAt { reader with frame := some { bytes := [9], expected := some 9, damage := none } })).readers.h1
      = { reader with receiver := .breaking, damaged := 1, runCount := 1 } := by decide +kernel

theorem test_lineBreak_is_reported_once :
    after (.lineBreak ⟨.h1, false⟩) (readerAt { reader with receiver := .breaking, fifo := [entry 9] })
      = readerAt { reader with receiver := .breaking, fifo := [entry 9] } := by decide +kernel

theorem test_idleEvent_closes_a_frame_as_damaged :
    (after (.idleEvent .h1) (readerAt
      { reader with
        receiver := .delivered, runCount := 7
        frame := some { bytes := [9], expected := some 9, damage := none } })).banks.reader.h1.record.map
      (fun f => (f.kind, f.index)) = some (.lineError, 1) := by decide +kernel

theorem test_idleEvent_is_reported_once :
    (let once := after (.idleEvent .h1) (readerAt { reader with receiver := .delivered, fifo := [entry 9] })
     let twice := after (.idleEvent .h1) once
     twice.readers.h1.fifo.map FifoEntry.events) = [[.idle]] := by decide +kernel

theorem test_fifoEntryTaken_length_byte_out_of_range :
    (after (.fifoEntryTaken .h1) (readerAt { reader with fifo := [entry 31] })).readers.h1.frame
      = some { bytes := [31], expected := none, damage := some .length } := by decide +kernel

/-- 2.6 at 250 ms: the second qualifying read in a run makes tag A present until 250 + 1,500. -/
theorem test_trackPresence_second_read_makes_present :
    (trackPresence (.tag 65 79) 5 250 { Reader.cold 0 with candidate := some 65 }).present
      = some { tag := 65, quality := 79, firstSeen := 5, lastSeen := 5, expiry := 1750 }
    ∧ (trackPresence (.tag 65 79) 5 250 { Reader.cold 0 with candidate := some 65 }).events = [.present 65] := by
  decide +kernel

/-- 2.6, the silent reader: READER_SILENT detail 1 and the tag lost before its grace. -/
theorem test_silenceTimerExpiry_loses_the_tag :
    (after (.silenceTimerExpiry .h1) site).readers.h1.events = [.lost fuelTag]
    ∧ (after (.silenceTimerExpiry .h1) site).banks.reader.h1.record.map (fun f => (f.kind, f.detail))
      = some (.readerSilent, 1)
    ∧ (after (.silenceTimerExpiry .h1) site).timebase.now = 5000 := by decide +kernel

theorem test_graceExpiry_at_its_instant :
    (after (.graceExpiry .h1) site).readers.h1.present = none ∧ (after (.graceExpiry .h1) site).timebase.now = 1750 := by
  decide +kernel

/-! ### Accounts and prices (Chapter 3) -/

theorem test_accountOpen_takes_slot_0 :
    answered (.accountOpen 502 1 1000) site = ok [0] ∧ status (.accountOpen 501 1 1000) site = some .duplicateNumber := by
  decide +kernel

theorem test_accountAmendChange_keeps_the_balance :
    (accountIn 3 (after (.accountAmendChange 3 77 0 5) site)).map (fun a => (a.number, a.tier, a.limit, a.balance))
      = some (77, .one, 5, 30000000) := by decide +kernel

theorem test_accountAmendRewrite_rebuilds_held :
    answered (.accountAmendRewrite 3 501 1 50000000 0 15 noFigures) (sessionAt .ready fill)
      = ok (u64 8392500 ++ u8 1 ++ u16 1) := by decide +kernel

theorem test_accountRead_by_number_names_the_slot : head 1 (.accountRead (.number 512)) site = some [12] := by decide +kernel

theorem test_accountStop_and_resume :
    (accountIn 3 (after (.accountStop 3) site)).map AccountRecord.state = some .stopped
    ∧ accountIn 3 (after (.accountResume 3) (after (.accountStop 3) site)) = some account := by decide +kernel

theorem test_accountRetire_in_use_names_references : answered (.accountRetire 3) site = some ⟨.inUse, [1, 0, 0]⟩ := by
  decide +kernel

theorem test_settle_within_the_balance :
    answered (.settle 3 30000000) site = ok (u64 0)
    ∧ answered (.settle 3 30000001) site = some ⟨.overSettle, u64 30000000⟩ := by decide +kernel

/-- 3.14: PERIOD CLOSE of period 14. -/
theorem test_periodClose_writes_statement_14 :
    (accountIn 3 (after (.periodClose 3) site)).map (fun a => (a.period, a.current)) = some (15, noFigures)
    ∧ ((accountIn 3 (after (.periodClose 3) site)).bind AccountRecord.previous)
      = some { period := 14, closeTime := 1000033600, figures := account.current, unread := true } := by decide +kernel

theorem test_periodClose_unread_names_the_period :
    answered (.periodClose 3) (after (.periodClose 3) site) = some ⟨.unread, [14, 0]⟩ := by decide +kernel

theorem test_statementRead_of_a_free_slot : status (.statementRead 0) site = some .noRecord := by decide +kernel

theorem test_statementRelease_of_the_statement_it_names :
    status (.statementRelease 3 13) (after (.periodClose 3) site) = some .state
    ∧ status (.statementRelease 3 14) (after (.periodClose 3) site) = some .ok := by decide +kernel

theorem test_priceWrite_answers_the_old_price :
    answered (.priceWrite 1 .g3 999999) site = ok (u32 9200) ∧ status (.priceWrite 1 .g3 1000000) site = some .malformed := by
  decide +kernel

theorem test_priceRead_by_tier_then_grade :
    (answered .priceRead site).map (fun a => (a.payload.drop 12).take 12) = some (u32 18650 ++ u32 17900 ++ u32 9200) := by
  decide +kernel

/-! ### Compartments (Chapter 4) -/

def three (s : State) : Compartment := s.compartments.three
def two (s : State) : Compartment := s.compartments.two

theorem test_compartmentSetup_grade_needs_out_of_service :
    status (.compartmentSetup 3 (some .g1) 8000 0) site = some .state
    ∧ status (.compartmentSetup 3 (some .g2) 8000 2100) site = some .ok
    ∧ (three (after (.compartmentSetup 3 (some .g2) 8000 2101) site)).restockNeeded = true := by decide +kernel

theorem test_compartmentService_of_a_drawn_compartment :
    status (.compartmentService 2 .outOfService) (sessionAt .ready fill) = some .busy
    ∧ (three (after (.compartmentService 3 .outOfService) site)).state = .outOfService := by decide +kernel

theorem test_restate_answers_what_stood_before :
    answered (.restate 2 (.host 7)) site = ok (u64 3200000000 ++ u64 5000000000 ++ u64 0 ++ u64 1800000000)
    ∧ (two (after (.restate 2 (.host 7)) site)).book = 7 ∧ (two (after (.restate 2 (.host 7)) site)).dispensed = 0 := by
  decide +kernel

theorem test_compartmentRead_of_no_compartment : status (.compartmentRead 5) site = some .malformed := by decide +kernel

theorem test_strapWrite_levels_rise :
    status (.strapWrite 3 [⟨10, 1⟩, ⟨10, 2⟩]) site = some .malformed
    ∧ (three (after (.strapWrite 3 [⟨0, 0⟩, ⟨32000, 20000⟩]) site)).strap = some [⟨0, 0⟩, ⟨32000, 20000⟩] := by decide +kernel

theorem test_strapRead_shows_the_table : head 10 (.strapRead 3) site = some ([1, 2] ++ u16 12000 ++ u16 6100 ++ u16 13000 ++ u16 6620) := by
  decide +kernel

theorem test_gauge_needs_a_table :
    status (.gauge 2) site = some .state ∧ status (.gauge 3) site = some .accepted
    ∧ status (.gauge 3) (after (.gauge 3) site) = some .busy := by decide +kernel

def goodSample (level : Nat) : RawSample := { statusFault := false, level := level, temperature := 280 }
def samplesAt (level : Nat) : ByFour RawSample := ByFour.all (goodSample level)

/-- The samples 7 to 21 of 4.8, latest first: 12,470 and 12,480 alternately. -/
def recentLevels : List (Nat × Int) :=
  [(12470, 280), (12480, 280), (12470, 280), (12480, 280), (12470, 280), (12480, 280), (12470, 280), (12480, 280),
    (12470, 280), (12480, 280), (12470, 280), (12480, 280), (12470, 280), (12480, 280), (12470, 280), (12502, 280)]

/-- Compartment 3 at sample 21 of 4.8. -/
def gauging : State :=
  { site with
    compartments := { site.compartments with
      three := { site.compartments.three with
        book := 6301240000, base := 6301240000
        gauge := some { origin := .host, samples := 21, recent := recentLevels } } } }

/-- 4.8: the gauge that settles at sample 22. -/
theorem test_probeSample_completes_the_gauge_of_4_8 :
    (three (after (.probeSample (samplesAt 12480)) gauging)).lastGauge
      = some
        { time := 1000033600, status := .settled, samples := 22,
          figures := some
            { level := 12475, temperature := 280, gross := 6347000000, net := 6278515870, variance := 22724130 } }
    ∧ Notice.doneComp .three ∈ (after (.probeSample (samplesAt 12480)) gauging).notices := by decide +kernel

theorem test_probeSample_not_good_is_a_probe_fault :
    ((three (after (.probeSample (samplesAt 32001)) gauging)).lastGauge.map GaugeResult.status,
      (after (.probeSample (samplesAt 32001)) gauging).banks.gauge.record.map (fun f => (f.kind, f.index, f.detail)))
      = (some .probeFault, some (.probe, 3, 1)) := by decide +kernel

/-! ### Authorisation (Chapter 5) -/

/-- The site with the figures of 5.7: the hold is cut to the 350 L of compartment 1. -/
def cutToStock : State :=
  { site with
    accounts := [(3, accountStamp { account with balance := 40000000, held := 2000000 }), (12, account12)]
    compartments := { site.compartments with
      two := { site.compartments.two with book := 300000000, base := 2100000000 }
      three := { site.compartments.three with state := .loading } }
    hoses := { site.hoses with h1 := { site.hoses.h1 with state := .idle } } }

theorem test_authorisation_cut_to_stock_5_7 :
    ((after (.tagPresent .h1 fuelTag) cutToStock).hoses.h1.session.map
      (fun x => (x.compartment, x.hold, x.price, x.moneyHold, x.setPoint))) = some (.one, 350, 17900, 6265000, 600) := by
  decide +kernel

/-- 3.14: H1 takes 450 L where the fill limit is 450, and its money hold. -/
theorem test_authoriseManual_takes_its_holds :
    head 1 (.authoriseManual 1 30118 .fuel (some 100)) site = some [0]
    ∧ (accountIn 3 (after (.authoriseManual 1 30118 .fuel (some 100)) site)).map (fun a => (a.held, a.openSessions))
      = some (1865000, 1) := by decide +kernel

theorem test_authoriseManual_refuses_a_fluid_tank_at_H1 :
    answered (.authoriseManual 1 30118 .fluid none) site = ok [1, u8 (reasonCode .misfuel) |>.headD 0] := by decide +kernel

/-- 5.6: a referred tag, then the two ACCEPT replies. -/
theorem test_referReplyAccept_of_5_6 :
    status (.referReplyAccept 1 3 ⟨true, false, false⟩ 150) (after (.accountStop 3) (referredAt rangeTag)) = some .accountStopped
    ∧ (after (.referReplyAccept 1 12 ⟨true, false, false⟩ 150) (referredAt rangeTag)).hoses.h1.session.map
      (fun x => (x.kind, x.compartment, x.hold, x.moneyHold)) = some (.referred, .two, 150, 2797500) := by decide +kernel

theorem test_referReplyRefuse_ends_the_request :
    (after (.referReplyRefuse 1) (referredAt rangeTag)).hoses.h1.lastRefusal.map LastRefusal.reason = some .hostRefused
    ∧ (after (.referReplyRefuse 1) (referredAt rangeTag)).notices = [.restarted] := by decide +kernel

theorem test_referReplyRecheck_restarts_the_deadline :
    ((after (.referReplyRecheck 1)
        { referredAt rangeTag with readers := (readerAt { reader with present := some (presence rangeTag) }).readers
                                   timebase := { site.timebase with now := 11000 } }).hoses.h1.referTimer)
      = some 41000 := by decide +kernel

theorem test_tagPresent_of_a_referring_range :
    ((after (.tagPresent .h1 rangeTag) (readerAt { reader with present := some (presence rangeTag) })).hoses.h1.state)
      = .referred := by decide +kernel

/-! ### Hoses and their inputs (Chapter 6) -/

def h1 (s : State) : Hose := s.hoses.h1

/-- Every field of HOSE SETUP at a legal value, the flows above H1's ceilings. -/
def setupFields : HoseSetupFields :=
  { preference := [2, 1], maxFlow := 1200, minFill := 20, slowDown := 10, slowFlow := 200, lead := 15, startDuty := 400,
    readyTimeout := 120, resumeWindow := 60, noFlowWindows := 20, noFlowThreshold := 2, stopSettle := 5, creepLimit := 5,
    rewindLimit := 40, referDeadline := 30, collectionRequired := true }

theorem test_hoseSetup_clamps_to_the_ceiling :
    (h1 (after (.hoseSetup 1 setupFields) site)).setup.maxFlow = 1000
    ∧ (after (.hoseSetup 3 { setupFields with preference := [4] }) site).hoses.h3.setup.slowFlow = 80
    ∧ status (.hoseSetup 1 { setupFields with preference := [2, 2] }) site = some .malformed := by decide +kernel

theorem test_hoseRead_of_no_hose : status (.hoseRead 4) site = some .malformed ∧ status (.hoseRead 3) site = some .ok := by
  decide +kernel

theorem test_hoseService_returns_to_the_state_it_left :
    (h1 (after (.hoseService 1 .inService) (after (.hoseService 1 .outOfService) (hoseAt .complete)))).state = .complete := by
  decide +kernel

theorem test_fieldStatus_clears_the_change_flags :
    (after .fieldStatus (after (.sealSwitch false) site)).field.changed = Switches.none
    ∧ (after (.sealSwitch false) site).field.changed.sealClosed = true := by decide +kernel

/-- H2 is stowed at the site, so its reel may not run; with its hose drawn it may. -/
def drawn : State := after (.stowSwitch .h2 false) site

theorem test_rewind_needs_a_drawn_hose :
    status (.rewind 2) site = some .state ∧ status (.rewind 2) drawn = some .accepted
    ∧ (after (.rewind 2) drawn).hoses.h2.rewindTimer = some 40000 ∧ drawn.drivePermit = false := by decide +kernel

theorem test_stowSwitch_ends_the_rewind :
    (after (.stowSwitch .h2 true) (after (.rewind 2) drawn)).hoses.h2.rewindOutcome = .stowed
    ∧ Notice.doneHose .h2 ∈ (after (.stowSwitch .h2 true) (after (.rewind 2) drawn)).notices
    ∧ (after (.stowSwitch .h2 true) (after (.rewind 2) drawn)).drivePermit = true := by decide +kernel

theorem test_rewindTimerExpiry_reports_reel :
    (after (.rewindTimerExpiry .h2) (after (.rewind 2) drawn)).hoses.h2.rewindOutcome = .limit
    ∧ (after (.rewindTimerExpiry .h2) (after (.rewind 2) drawn)).banks.hose.h2.record.map FaultRecord.kind = some .reel := by
  decide +kernel

theorem test_pwmPeriodStart_takes_the_staged_duty :
    (h1 (after .pwmPeriodStart (sessionAt .flowing fill))).outputs.active = 400 := by decide +kernel

theorem test_lineTemperature_flag_follows_validity :
    (after (.lineTemperatureValidityChange .h1 1001) site).field.tempChanged.h1 = true
    ∧ (after (.lineTemperatureValidityChange .h1 1000) site).field.tempChanged.h1 = false := by decide +kernel

theorem test_sealSwitch_at_its_level_is_no_event : after (.sealSwitch true) site = site := by decide +kernel

theorem test_emergencyStop_rests_and_stops :
    (h1 (after (.emergencyStop true) (sessionAt .flowing fill))).outputs = Outputs.rest
    ∧ (h1 (after (.emergencyStop true) (sessionAt .flowing fill))).state = .stopping
    ∧ (h1 (after (.emergencyStop true) (sessionAt .flowing fill))).session.map Session.stopCause = some (some .emergency) := by
  decide +kernel

theorem test_parkBrake_released_moves_the_vehicle :
    ((h1 (after (.parkBrake false) (referredAt rangeTag))).lastRefusal.map LastRefusal.reason,
      (h1 (after (.parkBrake false) (sessionAt .ready fill))).state) = (some .vehicleMoving, .idle) := by decide +kernel

/-! ### Sessions (Chapter 7) -/

/-- A fill that has ended READY's wait long ago. -/
def delivered (net : Nat) : Session := { fill with gross := net, net := net, started := some 1000033600, overrun := net - 450000000 }

theorem test_startInput_opens_the_valve :
    (h1 (after (.startInput .h1 true) (sessionAt .ready fill))).state = .flowing
    ∧ (h1 (after (.startInput .h1 true) (sessionAt .ready fill))).outputs.mainValve = true
    ∧ (h1 (after (.startInput .h1 true) (sessionAt .ready fill))).outputs.staged = 400 := by decide +kernel

/-- 7.9: a resume at 10 L remaining is SLOWING and raises the pause count; at the lead volume it is STOPPING. -/
theorem test_startInput_resumes_by_remaining_volume :
    (h1 (after (.startInput .h1 true) (sessionAt .paused (delivered 440000000)))).state = .slowing
    ∧ (h1 (after (.startInput .h1 true) (sessionAt .paused (delivered 440000000)))).session.map Session.pauseCount = some 1
    ∧ (h1 (after (.startInput .h1 true) (sessionAt .paused (delivered 448500000)))).state = .stopping := by decide +kernel

theorem test_nozzleSwitch_hung_in_flow :
    (h1 (after (.nozzleSwitch .h1 false) (sessionAt .flowing fill))).session.map Session.stopCause = some (some .nozzleHung) := by
  decide +kernel

theorem test_nozzleSwitch_lifted_authorises :
    (h1 (after (.nozzleSwitch .h1 true) (after (.nozzleSwitch .h1 false) site))).state = .ready := by decide +kernel

theorem test_tagLost_pauses_and_keeps_another_tag :
    (h1 (after (.tagLost .h1 fuelTag) (sessionAt .flowing fill))).state = .paused
    ∧ (h1 (after (.tagLost .h1 5) (sessionAt .flowing fill))).state = .flowing := by decide +kernel

theorem test_tagChanged_stops_the_session :
    (h1 (after (.tagChanged .h1 fuelTag 5) (sessionAt .slowing fill))).session.map Session.stopCause = some (some .tagChanged) := by
  decide +kernel

theorem test_hoseStop_answers_the_state_reached :
    answered (.hoseStop 1) (sessionAt .ready fill) = ok [0] ∧ answered (.hoseStop 1) (sessionAt .flowing fill) = ok [6]
    ∧ status (.hoseStop 1) site = some .state := by decide +kernel

theorem test_collect_clears_what_is_due :
    (h1 (after (.collect 1 1) { hoseAt .complete with hoses := { (hoseAt .complete).hoses with
        h1 := { (h1 (hoseAt .complete)) with session := some { fill with due := true } } } })).state = .idle
    ∧ status (.collect 1 1) (sessionAt .ready fill) = some .state ∧ status (.collect 1 0) site = some .malformed := by
  decide +kernel

theorem test_sessionRead_without_a_session : answered (.sessionRead 2) site = ok [0, 0, 0] := by decide +kernel

/-- 3.14: the charge of the H3 close, and 7.9's of the H2 close. -/
theorem test_charges_of_3_14_and_7_9 :
    chargeOf { fill with net := 58731204, price := 9200 } = 540327 ∧ chargeOf { fill with net := 412806551 } = 7698842
    ∧ chargeOf { fill with net := 200400000 } = 3737460 := by decide +kernel

/-- 3.14: what the close at H1 leaves on account 3. -/
theorem test_close_of_3_14_on_the_account :
    (accountIn 3 (after (.settleTimerExpiry .h1) (sessionAt .stopping { delivered 412806551 with stopCause := some .hostStop }))).map
      (fun a => (a.balance, a.held, a.openSessions, a.current.fills)) = some (37698842, 0, 0, 5) := by decide +kernel

theorem test_settleTimerExpiry_with_a_moving_meter_locks :
    (h1 (after (.settleTimerExpiry .h1) (after (.forwardPulse .one 5) (sessionAt .stopping { fill with stopCause := some .hostStop })))).state
      = .locked := by decide +kernel

theorem test_readyTimerExpiry_closes_not_started :
    (h1 (after (.readyTimerExpiry .h1) (sessionAt .ready fill))).session.map (fun x => (x.stopCause, x.charge))
      = some (some .notStarted, some 0) := by decide +kernel

theorem test_resumeTimerExpiry_stops :
    (h1 (after (.resumeTimerExpiry .h1) (sessionAt .paused fill))).session.map Session.stopCause = some (some .pauseExpired) := by
  decide +kernel

theorem test_referDeadlineExpiry_times_out :
    (h1 (after (.referDeadlineExpiry .h1) (referredAt rangeTag))).lastRefusal.map LastRefusal.reason = some .referTimeout := by
  decide +kernel

/-! ### Metering (Chapter 8) -/

/-- The window of 8.8: 292 pulses 249,400 µs apart, the totaliser as it stood, the session of H1. -/
def window88 : State :=
  { sessionAt .flowing fill with
    channels := { site.channels with
      one := { Channel.cold with n := 292, first := some 600, last := some 250000, totaliser := 48213906552118 } }
    timebase := { site.timebase with window := 250, pendingWindow := 250 } }

theorem test_window_arithmetic_of_8_8 :
    computeWindow .one (ownerOf .one window88) 324 window88 =
      ({ meter := .one, start := 0, length := 250, n := 292, q := 700, lf := 65471, gross := 2917103, temperature := 324,
         fallback := false, vcf := 985558, net := 2874974, destination := .session }, 57792, 198474) := by decide +kernel

theorem test_window_distribution_of_8_8 :
    (two (channelWindow .one 324 window88)).book = 3197125026
    ∧ (two (channelWindow .one 324 window88)).dispensed = 1802874974
    ∧ (two (channelWindow .one 324 window88)).committed = 447125026
    ∧ (channelWindow .one 324 window88).channels.one.totaliser = 48213909469221
    ∧ (h1 (channelWindow .one 324 window88)).state = .flowing
    ∧ (h1 (channelWindow .one 324 window88)).outputs.staged = 400 := by decide +kernel

theorem test_windowExpiry_starts_the_next_window :
    (after (.windowExpiry (ByFour.all 150)) site).timebase.windowStart = 200
    ∧ (after (.windowExpiry (ByFour.all 150)) site).timebase.now = 200 := by decide +kernel

/-- 6.4: the steps of the staged duty. -/
theorem test_regulation_of_6_4 :
    [regulate 183 200 400, regulate 195 200 410, regulate 203 200 420, regulate 206 200 420, regulate 201 60 410]
      = [410, 420, 420, 410, 400] := by decide +kernel

/-- 6.5: the fourth window of the weeping valve locks H1 with LEAK, detail 540. -/
def weeping : State :=
  { site with
    hoses := { site.hoses with h1 := { site.hoses.h1 with lastSource := some .two } }
    channels := { site.channels with one := { Channel.cold with unattributed := 450000 } } }

theorem test_creep_beyond_the_limit_locks :
    (h1 (creepTest .h1 90000 (addUnattributed .one 90000 weeping))).state = .locked
    ∧ (creepTest .h1 90000 (addUnattributed .one 90000 weeping)).banks.hose.h1.record.map (fun f => (f.kind, f.detail))
      = some (.leak, 540) := by
  decide +kernel

/-- 8.9, window a: three reverse pulses, then five forward, two of them counted. -/
theorem test_debt_is_paid_first :
    (countReverse .one (countReverse .one (countReverse .one site))).channels.one.debt = 3
    ∧ (after (.forwardPulse .one 7) (after (.reversePulse .one) site)).channels.one.n = 0
    ∧ (after (.forwardPulse .one 7) site).channels.one.n = 1 := by decide +kernel

theorem test_reversePulse_raises_the_debt : (after (.reversePulse .two) site).channels.two.debt = 1 := by decide +kernel

theorem test_illegalTransition_third_reports :
    (after (.illegalTransition .one) { site with channels := { site.channels with one := { Channel.cold with illegal := 2 } } }).banks.meter.one.record.map
      (fun f => (f.kind, f.index, f.detail)) = some (.pulser, 1, 2) := by decide +kernel

theorem test_pulserQuarterStep_completes_at_four :
    (after (.pulserQuarterStep .one true) { site with channels := { site.channels with one := { Channel.cold with step := 3 } } }).channels.one.n
      = 1
    ∧ (after (.pulserQuarterStep .one true) site).channels.one.step = 1 := by decide +kernel

theorem test_meterRead_of_meter_5 : status (.meterRead 5) site = some .malformed ∧ status (.meterRead 4) site = some .ok := by
  decide +kernel

/-! ### Metrology and proving (Chapter 9) -/

def meterWrite : Instr := .metrologyWrite 2 20000 [{ flow := 10, factor := 65536 }]

theorem test_metrologyWrite_waits_for_its_completion :
    (after meterWrite site).port.answer = none
    ∧ answered .storeWriteComplete (after meterWrite site) = ok [7, 0]
    ∧ (after .storeWriteComplete (after meterWrite site)).store.meters.two
      = { pulseVolume := 20000, firstPoint := { flow := 10, factor := 65536 }, morePoints := [], calibrated := true, changes := 7 } := by
  decide +kernel

theorem test_metrologyWrite_under_the_seal : status meterWrite (after (.sealSwitch false) site) = some .sealed := by decide +kernel

theorem test_gradeCoefficientWrite_raises_every_counter :
    ((after .storeWriteComplete (after (.gradeCoefficientWrite .g1 2000 (-400)) site)).store.meters.toList.map MeterRecord.changes)
      = [7, 7, 7, 7]
    ∧ status (.gradeCoefficientWrite .g1 2001 0) site = some .malformed := by decide +kernel

theorem test_storeWrite_turns_other_commands_away :
    (after .priceRead (after meterWrite site)).port.overrun = true ∧ (after .priceRead (after meterWrite site)).port.answer = none := by
  decide +kernel

theorem test_metrologyRead_shows_pulse_volume : head 8 (.metrologyRead 1) site = some (u64 10000) := by decide +kernel

/-- 9.4: PROVE START draws from compartment 2 with the valve closed. -/
theorem test_proveStart_of_9_4 :
    status (.proveStart 1 460 500) site = some .accepted
    ∧ (h1 (after (.proveStart 1 460 500) site)).run.map (fun r => (r.compartment, r.setPoint)) = some (.two, 460)
    ∧ (h1 (after (.proveStart 1 460 500) site)).state = .proveReady := by decide +kernel

/-- 9.4: the prover's 499,880 mL and 485,000 mL. -/
theorem test_proveResult_of_9_4 :
    (h1 (after .storeWriteComplete (after (.proveResult 1 499880) (runAt .proveHeld run)))).run.map (fun r => (r.outcome, r.result))
      = some (.updated, some { observed := 499880, averageFlow := 459, point := 1, oldFactor := 65667, newFactor := 65597 })
    ∧ (after .storeWriteComplete (after (.proveResult 1 499880) (runAt .proveHeld run))).store.meters.one
      = { meter with firstPoint := { flow := 400, factor := 65597 }, changes := 7 } := by decide +kernel

theorem test_proveResult_rejected :
    answered (.proveResult 1 485000) (runAt .proveHeld run) = ok [2]
    ∧ (after (.proveResult 1 485000) (runAt .proveHeld run)).store = site.store := by decide +kernel

theorem test_proveAbort_ends_the_run :
    (h1 (after (.proveAbort 1) (runAt .proveReady run))).run.map Run.outcome = some .aborted
    ∧ status (.proveAbort 1) site = some .state := by decide +kernel

theorem test_proveRead_without_a_run : answered (.proveRead 2) site = ok [0, 0] := by decide +kernel

theorem test_proveReadyTimeout : (h1 (after (.proveReadyTimeout .h1) (runAt .proveReady run))).run.map Run.outcome = some .timeout := by
  decide +kernel

theorem test_proveSettleTimerExpiry_settles :
    (h1 (after (.proveSettleTimerExpiry .h1) (runAt .proveHeld { run with settled := false }))).run.map Run.settled = some true
    ∧ (h1 (after (.proveSettleTimerExpiry .h1) (after (.forwardPulse .one 9) (runAt .proveHeld { run with settled := false })))).state
      = .locked := by decide +kernel

/-! ### Restocking (Chapter 10) -/

def orderOf (s : State) : Option LoadOrder := tableGet s.loads.orders 0

theorem test_loadCreate_takes_slot_0 :
    answered (.loadCreate 3 .g2 5000 (List.replicate 16 0x41)) site = ok [0]
    ∧ orderOf (after (.loadCreate 3 .g2 5000 (List.replicate 16 0x41)) site) = some (order .planned)
    ∧ status (.loadCreate 3 .g2 5000 (List.replicate 16 0x1F)) site = some .malformed := by decide +kernel

/-- 10.8 at 100 s: the ullage limit and the before gauge. -/
theorem test_loadArm_of_10_8 :
    status (.loadArm 0) (orderAt (order .planned)) = some .ok
    ∧ (after (.loadArm 0) (orderAt (order .planned))).loads.ullageLimit = 7760000000
    ∧ (after (.loadArm 0) (orderAt (order .planned))).loads.armTimer = some 900000
    ∧ (three (after (.loadArm 0) (orderAt (order .planned)))).state = .loading
    ∧ (three (after (.loadArm 0) (orderAt (order .planned)))).gauge.map Gauge.origin = some .load := by decide +kernel

theorem test_loadCancel_gives_the_compartment_back :
    (orderOf (after (.loadCancel 0) (orderAt (order .armed)))).map (fun o => (o.state, o.endCause)) = some (.cancelled, some .hostAbort)
    ∧ (three (after (.loadCancel 0) (orderAt (order .armed)))).state = .inService := by decide +kernel

theorem test_loadAbort_closes_the_inlet :
    (after (.loadAbort 0) (orderAt (order .loading))).loads.valveOpen = false
    ∧ (after (.loadAbort 0) (orderAt (order .loading))).loads.settleTimer = some 120000
    ∧ status (.loadAbort 0) (orderAt (order .armed)) = some .state := by decide +kernel

theorem test_loadRead_of_a_free_slot : status (.loadRead 1) (orderAt (order .planned)) = some .noRecord := by decide +kernel

theorem test_loadRetire_only_when_ended :
    status (.loadRetire 0) (orderAt (order .settling)) = some .state
    ∧ (after (.loadRetire 0) (orderAt (order .complete))).loads.orders = [] := by decide +kernel

theorem test_inletSetup_is_busy_with_an_active_order :
    status (.inletSetup 5 1 30 90) (orderAt (order .armed)) = some .busy ∧ status (.inletSetup 5 1 30 90) site = some .ok
    ∧ status (.inletSetup 4 1 30 90) site = some .malformed := by decide +kernel

theorem test_inletRead_shows_the_setup : head 6 .inletRead site = some ([30, 0, 15] ++ [120, 0, 97]) := by decide +kernel

/-- 10.8 at 140 s: the coupling is made and the inlet opens. -/
theorem test_inletCoupling_opens_the_inlet :
    (orderOf (after (.inletCoupling true) (orderAt (order .armed)))).map LoadOrder.state = some .loading
    ∧ (after (.inletCoupling true) (orderAt (order .armed))).loads.valveOpen = true
    ∧ (after (.inletCoupling true) (orderAt (order .armed))).drivePermit = false := by decide +kernel

theorem test_highLevelSwitch_ends_the_load :
    (orderOf (after (.highLevelSwitch .three true) (orderAt (order .loading)))).map LoadOrder.endCause = some (some .highLevel)
    ∧ (after (.highLevelSwitch .three true) (orderAt (order .loading))).banks.inlet.record.map FaultRecord.kind = some .highLevel := by
  decide +kernel

/-- R147, R150, R173: the high level is taken first, so the window that follows is unattributed. -/
theorem test_highLevel_then_window_is_unattributed :
    ownerOf .four (after (.highLevelSwitch .three true) (orderAt (order .loading))) = .inletNobody
    ∧ ownerOf .four (orderAt (order .loading)) ≠ .inletNobody := by decide +kernel

theorem test_armTimerExpiry_cancels :
    (orderOf (after .armTimerExpiry (orderAt (order .armed)))).map LoadOrder.endCause = some (some .armTimeout) := by decide +kernel

theorem test_inletIdleTimerExpiry_ends_the_flow :
    (orderOf (after .inletIdleTimerExpiry (orderAt (order .loading)))).map LoadOrder.endCause = some (some .depotStopped) := by
  decide +kernel

/-- 10.8: the docket variance, without a strapping table. -/
theorem test_loadSettleTimerExpiry_docket_variance :
    (orderOf (after .loadSettleTimerExpiry (unstrapped (orderAt { order .settling with net := 4986416355 })))).map
      (fun o => (o.state, o.docketVariance)) = some (.complete, some (-13583645))
    ∧ gaugeVarianceOf { order .settling with gaugeBefore := some 2094300000, net := 4986416355 } (some 7078112000)
      = some (-2604355) := by decide +kernel

/-! ### Timebase (Chapter 11) -/

theorem test_windowSet_clamps :
    answered (.windowSet 49) site = ok (u16 50) ∧ answered (.windowSet 70000) site = ok (u16 1000)
    ∧ (after (.windowSet 50) site).timebase.window = 200 := by decide +kernel

/-- 11.3: a set forward over no instant and over two. -/
theorem test_clockSet_of_11_3 :
    (after (.clockSet 1000093600) site).notices = [.restarted]
    ∧ Notice.day ∈ (after (.clockSet 1000233600) site).notices
    ∧ (machineAt52 (after (.clockSet 1000233600) site)).map MachineRecord.used = some 0 := by decide +kernel

theorem test_rolloverSet_within_the_day :
    status (.rolloverSet 86400) site = some .malformed ∧ (after (.rolloverSet 86399) site).timebase.rolloverSecond = 86399 := by
  decide +kernel

theorem test_clockRead_count_and_second_of_day :
    head 13 .clockRead site = some (u32 1000033600 ++ [1] ++ u32 21600 ++ u32 40000) := by decide +kernel

/-- 11.3: counting reaches 1,000,188,000. -/
theorem test_siteClockSecond_rolls_over :
    Notice.day ∈ (after .siteClockSecond { site with timebase := { site.timebase with count := 1000187999 } }).notices
    ∧ (after .siteClockSecond { site with timebase := { site.timebase with count := 4294967295 } }).timebase.count = 0 := by
  decide +kernel

theorem test_resetPin_keeps_the_records :
    (after .resetPin (sessionAt .flowing fill)).port = Port.cold
    ∧ (h1 (after .resetPin (sessionAt .flowing fill))).session.map Session.stopCause = some (some .reset)
    ∧ (after .resetPin (sessionAt .flowing fill)).timebase.lastReset = { kind := .warm, cause := .resetPin, count := 1000033600 } := by
  decide +kernel

theorem test_restart_gives_no_answer :
    answered .restart site = none ∧ (after .restart site).timebase.lastReset.cause = .restart := by decide +kernel

theorem test_powerUp_cold_when_retention_was_lost :
    (after .powerUp (after .retentionSupplyLoss site)).machines = []
    ∧ (after .powerUp (after .retentionSupplyLoss site)).store.meters.one = { meter with changes := 7 }
    ∧ (after .powerUp site).machines = [(52, machine)] := by decide +kernel

theorem test_powerFailWarning_closes_with_power :
    (h1 (after (.powerFailWarning true) (sessionAt .flowing fill))).session.map Session.stopCause = some (some .power)
    ∧ (after (.powerFailWarning true) site).timebase.holdOff = some 20 := by decide +kernel

theorem test_powerFailHoldOffExpiry_holds :
    (after .powerFailHoldOffExpiry (after (.powerFailWarning true) site)).supply.power = .held
    ∧ (after (.powerFailWarning false) (after .powerFailHoldOffExpiry (after (.powerFailWarning true) site))).timebase.lastReset
      = { kind := .warm, cause := .powerFail, count := 1000033600 } := by decide +kernel

theorem test_mainPowerLoss_rests_outputs :
    (h1 (after .mainPowerLoss (sessionAt .flowing fill))).outputs = Outputs.rest
    ∧ (after .mainPowerLoss site).drivePermit = false ∧ after .pwmPeriodStart (after .mainPowerLoss site) = after .mainPowerLoss site := by
  decide +kernel

/-! ### Faults, notices and the port (Chapter 12) -/

theorem test_faultRead_of_bank_14 : status (.faultRead 14) site = some .malformed ∧ head 3 (.faultRead 4) site = some [31, 0, 0] := by
  decide +kernel

theorem test_faultControl_names_only_the_banks_kinds :
    status (.faultControl 13 2) site = some .malformed ∧ (after (.faultControl 13 0) site).banks.table.enable = 0 := by decide +kernel

theorem test_faultClear_unlocks_the_hose :
    (h1 (after (.faultClear 4) (faulted (.hose .h1) .leak (hoseAt .locked)))).state = .idle
    ∧ (h1 (after (.faultClear 4) (faulted (.meter .one) .pulser (hoseAt .locked)))).state = .locked := by decide +kernel

theorem test_report_keeps_the_graver_fault :
    (report (.hose .h1) .noFlow 1 3 (faulted (.hose .h1) .leak site)).banks.hose.h1.record.map FaultRecord.kind = some .leak
    ∧ (report (.hose .h1) .leak 1 3 (faulted (.hose .h1) .noFlow site)).banks.hose.h1.record.map FaultRecord.kind = some .leak
    ∧ (report (.hose .h1) .leak 1 3 (faulted (.hose .h1) .noFlow site)).banks.hose.h1.overflow = true := by decide +kernel

theorem test_noticeNext_by_priority_then_source :
    answered .noticeNext { site with notices := [.refer .h1, .refer .h2, .restarted] } = ok [2, 1, 1, 2]
    ∧ answered .noticeNext { site with notices := [] } = ok [0, 0, 0] := by decide +kernel

theorem test_noticeMask_drops_what_it_disables :
    (after (.noticeMask 1) { site with notices := [.fault .gauge, .day] }).notices = [.fault .gauge]
    ∧ status (.noticeMask 256) site = some .malformed := by decide +kernel

/-- R193: part code 6140, revision 1, payloads of 512 and 1,024 bytes. -/
theorem test_identify : answered .identify site = ok [0xFC, 0x17, 1, 0, 2, 0, 4] := by decide +kernel

/-- R190, R191: a frame of `code` with sequence 5 and no payload. -/
def emptyFrame (code : Byte) : List Byte := [code, 5, 0, 0] ++ u16 (crc16 [code, 5, 0, 0]).toNat

theorem test_commandTransaction_takes_identify :
    (after (.commandTransaction 1 (emptyFrame 0x02)) site).port.link = .executing
    ∧ (after (.commandTransaction 1 [0, 5, 0, 0, 0, 0]) site).port.response.map (fun r => r.answer.status) = some .checkFailed
    ∧ after (.commandTransaction 3 (emptyFrame 0)) site = site := by decide +kernel

theorem test_readTransaction_consumes_the_response :
    (after (.readTransaction 2 64) (after (.commandTransaction 1 [0, 5, 0, 0, 0, 0]) site)).port.link = .idle
    ∧ (after (.readTransaction 2 7) (after (.commandTransaction 1 [0, 5, 0, 0, 0, 0]) site)).port.link = .result := by decide +kernel

theorem test_linkReset_leaves_the_command_running :
    (after .linkReset (after (.commandTransaction 1 (emptyFrame 0x02)) site)).port.executing.map Taken.wanted = some false := by
  decide +kernel

/-! ### The step -/

/-- The state after one step. -/
def stepped (s : State) : State :=
  match step s with
  | .next t => t
  | .fault _ => s
  | .refused _ => s

theorem test_step_takes_the_front_first :
    stepped { site with pending := [.retentionSupplyLoss, .identify] }
      = { site with supply := { site.supply with lossLatch := true }, pending := [.identify] } := by decide +kernel

theorem test_step_idles_on_an_empty_queue :
    stepped { site with timebase := { site.timebase with capture := 4294966999 } }
      = { site with timebase := { site.timebase with capture := 703, now := 1 } } := by decide +kernel

theorem test_decodeTableWord_the_table_gives_no_bits : decodeTableWord 8 1 = none ∧ site.withFetchWord 8 1 = site := by decide +kernel

/-! ### WellFormed: an ill-formed command for each check, and the last legal value beside it -/

/-- Every command of the list is ill-formed. -/
def allIll (cs : List Instr) : Bool := cs.all (fun c => !wellFormed c)

/-- Every command of the list is well formed. -/
def allWell (cs : List Instr) : Bool := cs.all wellFormed

def machineWith (f : MachineFields → MachineFields) : Instr := .machineInstall (f sameFields)

theorem test_wellFormed_machineInstall_fields :
    allIll [machineWith (fun f => { f with number := 0 }), machineWith (fun f => { f with number := 1000000 }),
      machineWith (fun f => { f with account := 256 }), machineWith (fun f => { f with allowance := 0 }),
      machineWith (fun f => { f with allowance := 65536 }), machineWith (fun f => { f with fuel := none, fluid := none })] = true
    ∧ allWell [machineWith id, machineWith (fun f => { f with number := 999999, account := 255, allowance := 65535 })] = true := by
  decide +kernel

theorem test_wellFormed_tanks :
    allIll [machineWith (fun f => { f with fuel := some { fuelTank with tag := 0 } }),
      machineWith (fun f => { f with fuel := some { fuelTank with tag := 2 ^ 48 } }),
      machineWith (fun f => { f with fuel := some { fuelTank with grades := ⟨true, false, true⟩ } }),
      machineWith (fun f => { f with fuel := some { fuelTank with capacity := 20001 } }),
      machineWith (fun f => { f with fuel := some { fuelTank with ceiling := some 9 } }),
      machineWith (fun f => { f with fluid := some { fluidTank with grades := ⟨true, false, false⟩ } }),
      machineWith (fun f => { f with fluid := some { fluidTank with capacity := 2001 } }),
      machineWith (fun f => { f with fluid := some { fluidTank with ceiling := some 1001 } }),
      machineWith (fun f => { f with fluid := some { fluidTank with tag := fuelTag } })] = true
    ∧ allWell [machineWith (fun f => { f with fluid := none }), machineWith (fun f => { f with fuel := none })] = true := by
  decide +kernel

theorem test_wellFormed_machine_commands :
    allIll [.machineAmendChange 1024 sameFields, .machineAmendChange 0 { sameFields with number := 0 },
      .machineAmendRewrite 1024 sameFields 0 0 0, .machineAmendRewrite 0 sameFields (2 ^ 48) 0 0,
      .machineAmendRewrite 0 sameFields 5 6 0, .machineAmendRewrite 0 sameFields 5 5 65536,
      .machineAmendRewrite 0 { sameFields with number := 0 } 5 5 0, .machineRead 1024, .machineFind (.tag 0),
      .machineFind (.number 0), .machineFind (.number 1000000), .machineSuspend 1024, .machineReinstate 1024,
      .machineRetire 1024, .tagQuery 0, .tagQuery (2 ^ 48)] = true
    ∧ allWell [.machineAmendRewrite 1023 sameFields (2 ^ 48 - 1) (2 ^ 48 - 1) 65535, .machineRead 1023,
      .tagQuery (2 ^ 48 - 1)] = true := by decide +kernel

theorem test_wellFormed_ranges_and_policy :
    allIll [.rangeWrite 8 RangeEntry.cold, .rangeWrite 0 { RangeEntry.cold with base := 2 ^ 48 },
      .rangeWrite 0 { RangeEntry.cold with mask := 2 ^ 48 }, .rangeWrite 0 { RangeEntry.cold with account := 256 },
      .rangeWrite 0 { RangeEntry.cold with grades := ⟨false, false, false⟩ },
      .rangeWrite 0 { RangeEntry.cold with grades := ⟨true, true, true⟩ },
      .rangeWrite 0 { RangeEntry.cold with limit := 0 }, .rangeWrite 0 { RangeEntry.cold with limit := 20001 },
      .rangeRead 8, .defaultPolicySet .allow] = true
    ∧ allWell [.rangeWrite 7 RangeEntry.cold, .rangeRead 7, .defaultPolicySet .refer] = true := by decide +kernel

theorem test_wellFormed_readers :
    allIll [.readerSetup 0 9600 0 500, .readerSetup 4 9600 0 500, .readerSetup 1 9601 0 500, .readerSetup 1 9600 101 500,
      .readerSetup 1 9600 0 499, .readerSetup 1 9600 0 10001, .readerStatus 4 true] = true
    ∧ allWell [.readerSetup 3 38400 100 10000, .readerStatus 3 false] = true := by decide +kernel

theorem test_wellFormed_accounts :
    allIll [.accountOpen 0 0 0, .accountOpen 65536 0 0, .accountOpen 1 4 0, .accountOpen 1 0 (10 ^ 12),
      .accountAmendChange 256 1 0 0, .accountAmendChange 0 1 4 0, .accountAmendChange 0 0 0 0,
      .accountAmendRewrite 256 1 0 0 0 1 noFigures, .accountAmendRewrite 0 1 4 0 0 1 noFigures,
      .accountAmendRewrite 0 0 0 0 0 1 noFigures, .accountAmendRewrite 0 1 0 0 (2 ^ 63) 1 noFigures,
      .accountAmendRewrite 0 1 0 0 0 0 noFigures, .accountAmendRewrite 0 1 0 0 0 65536 noFigures,
      .accountAmendRewrite 0 1 0 0 0 1 { noFigures with net := ⟨0, 2 ^ 63, 0⟩ },
      .accountAmendRewrite 0 1 0 0 0 1 { noFigures with charges := 2 ^ 63 },
      .accountAmendRewrite 0 1 0 0 0 1 { noFigures with fills := 65536 }, .accountRead (.slot 256), .accountRead (.number 0),
      .accountRead (.number 65536), .accountStop 256, .accountResume 256, .accountRetire 256, .settle 256 0,
      .settle 0 (2 ^ 63), .periodClose 256, .statementRead 256, .statementRelease 256 1, .statementRelease 0 65536,
      .priceWrite 4 .g1 0, .priceWrite 0 .g1 1000000] = true
    ∧ allWell [.accountOpen 65535 3 (10 ^ 12 - 1), .accountAmendChange 255 1 0 0, .settle 255 (2 ^ 63 - 1),
      .accountAmendRewrite 255 1 0 0 (2 ^ 63 - 1) 65535 noFigures, .priceWrite 3 .g3 999999] = true := by decide +kernel

theorem test_wellFormed_compartments :
    allIll [.compartmentSetup 5 none 100 0, .compartmentSetup 1 none 99 0, .compartmentSetup 1 none 20001 0,
      .compartmentSetup 1 none 100 20001, .compartmentService 0 .inService, .restate 5 .gauge, .restate 1 (.host (2 ^ 40)),
      .compartmentRead 0, .strapWrite 5 strapPoints, .strapWrite 1 [⟨0, 0⟩], .strapWrite 1 (List.replicate 17 ⟨0, 0⟩),
      .strapWrite 1 [⟨0, 0⟩, ⟨32001, 1⟩], .strapWrite 1 [⟨0, 0⟩, ⟨1, 20001⟩], .strapWrite 1 [⟨1, 0⟩, ⟨1, 1⟩],
      .strapWrite 1 [⟨0, 1⟩, ⟨1, 1⟩], .strapRead 5, .gauge 5] = true
    ∧ allWell [.compartmentSetup 4 none 20000 20000, .restate 1 (.host (2 ^ 40 - 1)), .strapWrite 4 strapPoints] = true := by
  decide +kernel

theorem test_wellFormed_authorisation :
    allIll [.authoriseManual 4 1 .fuel none, .authoriseManual 1 0 .fuel none, .authoriseManual 1 1 .fuel (some 0),
      .authoriseManual 1 1 .fuel (some 20001), .referReplyAccept 0 0 ⟨true, false, false⟩ 1,
      .referReplyAccept 1 256 ⟨true, false, false⟩ 1, .referReplyAccept 1 0 ⟨false, true, true⟩ 1,
      .referReplyAccept 1 0 ⟨true, false, false⟩ 0, .referReplyRefuse 4, .referReplyRecheck 0] = true
    ∧ allWell [.authoriseManual 3 999999 .fluid (some 20000), .referReplyAccept 3 255 ⟨false, false, true⟩ 20000] = true := by
  decide +kernel

def setupWith (f : HoseSetupFields → HoseSetupFields) : Instr := .hoseSetup 1 (f setupFields)

theorem test_wellFormed_hoseSetup :
    allIll [.hoseSetup 4 setupFields, setupWith (fun f => { f with preference := [] }),
      setupWith (fun f => { f with preference := [5] }), setupWith (fun f => { f with preference := [1, 1] }),
      setupWith (fun f => { f with preference := [1, 2, 3, 4, 1] }),
      setupWith (fun f => { f with maxFlow := 9 }), setupWith (fun f => { f with minFill := 0 }),
      setupWith (fun f => { f with minFill := 501 }), setupWith (fun f => { f with slowDown := 101 }),
      setupWith (fun f => { f with slowFlow := 4 }), setupWith (fun f => { f with slowFlow := 201 }),
      setupWith (fun f => { f with lead := 201 }), setupWith (fun f => { f with startDuty := 1001 }),
      setupWith (fun f => { f with readyTimeout := 9 }), setupWith (fun f => { f with resumeWindow := 301 }),
      setupWith (fun f => { f with noFlowWindows := 1 }), setupWith (fun f => { f with noFlowThreshold := 51 }),
      setupWith (fun f => { f with stopSettle := 31 }), setupWith (fun f => { f with creepLimit := 0 }),
      setupWith (fun f => { f with rewindLimit := 121 }), setupWith (fun f => { f with referDeadline := 4 })] = true
    ∧ allWell [setupWith id, setupWith (fun f => { f with maxFlow := 65535, preference := [4, 3, 2, 1] })] = true := by decide +kernel

theorem test_wellFormed_hoses_and_sessions :
    allIll [.hoseRead 0, .hoseService 4 .inService, .rewind 4, .hoseStop 4, .collect 4 1, .collect 1 0, .collect 1 65536,
      .sessionRead 4] = true
    ∧ allWell [.hoseRead 3, .collect 3 65535, .fieldStatus] = true := by decide +kernel

theorem test_wellFormed_metrology_and_proving :
    allIll [.meterRead 5, .metrologyWrite 5 1000 [⟨0, 65536⟩], .metrologyWrite 1 999 [⟨0, 65536⟩],
      .metrologyWrite 1 100001 [⟨0, 65536⟩], .metrologyWrite 1 1000 [], .metrologyWrite 1 1000 [⟨0, 58981⟩],
      .metrologyWrite 1 1000 [⟨0, 72091⟩], .metrologyWrite 1 1000 [⟨65536, 65536⟩],
      .metrologyWrite 1 1000 [⟨5, 65536⟩, ⟨5, 65536⟩], .gradeCoefficientWrite .g1 2001 0,
      .gradeCoefficientWrite .g1 0 (-401), .gradeCoefficientWrite .g1 0 851, .metrologyRead 0, .proveStart 4 5 20,
      .proveStart 1 4 20, .proveStart 1 1001 20, .proveStart 1 5 19, .proveStart 1 5 2001, .proveResult 4 0,
      .proveResult 1 4000001, .proveAbort 4, .proveRead 4] = true
    ∧ allWell [.metrologyWrite 4 100000 [⟨0, 58982⟩, ⟨65535, 72090⟩], .gradeCoefficientWrite .g3 2000 850,
      .proveStart 3 1000 2000, .proveResult 3 4000000] = true := by decide +kernel

theorem test_wellFormed_loads_clock_and_banks :
    allIll [.loadCreate 5 .g1 1 (List.replicate 16 0x20), .loadCreate 1 .g1 0 (List.replicate 16 0x20),
      .loadCreate 1 .g1 20001 (List.replicate 16 0x20), .loadCreate 1 .g1 1 (List.replicate 15 0x20),
      .loadCreate 1 .g1 1 (List.replicate 16 0x7F), .loadArm 8, .loadCancel 8, .loadAbort 8, .loadRead 8, .loadRetire 8,
      .inletSetup 301 1 30 90, .inletSetup 5 61 30 90, .inletSetup 5 1 29 90, .inletSetup 5 1 30 100,
      .clockSet (2 ^ 32), .rolloverSet 86400, .faultRead 0, .faultRead 14, .faultControl 1 4, .faultControl 4 32,
      .faultControl 7 8, .faultControl 11 4, .faultControl 12 4, .faultControl 13 2, .faultControl 14 0, .faultClear 14,
      .noticeMask 256] = true
    ∧ allWell [.loadCreate 4 .g1 20000 (List.replicate 16 0x7E), .loadArm 7, .inletSetup 300 60 900 99, .windowSet 70000,
      .clockSet (2 ^ 32 - 1), .faultControl 4 31, .noticeMask 255] = true := by decide +kernel

theorem test_wellFormed_events :
    allIll [.tagPresent .h1 0, .tagLost .h1 (2 ^ 48), .tagChanged .h1 5 5, .tagChanged .h1 0 5, .tagChanged .h1 5 0,
      .windowExpiry ⟨0, 0, 0, 32768⟩, .windowExpiry ⟨-32769, 0, 0, 0⟩, .forwardPulse .one (2 ^ 32),
      .probeSample ⟨⟨false, 65536, 0⟩, goodSample 0, goodSample 0, goodSample 0⟩,
      .probeSample ⟨goodSample 0, goodSample 0, goodSample 0, ⟨true, 0, 32768⟩⟩,
      .lineTemperatureValidityChange .h1 32768] = true
    ∧ allWell [.tagChanged .h1 5 6, .windowExpiry ⟨-32768, 0, 0, 32767⟩, .forwardPulse .one (2 ^ 32 - 1)] = true := by
  decide +kernel

/-! ### Witnesses: a state and operands that meet the hypotheses of each statement, clause by clause

A hypothesis that only names a state, a record or a function by an equation is met by taking its right-hand side. -/

/-- The site with slot 52 holding `m`. -/
def machineIn (m : MachineRecord) : State := { site with machines := [(52, m)] }

/-- The site with account slot 3 holding `a`. -/
def accountIs (a : AccountRecord) : State := { site with accounts := [(3, a), (12, account12)] }

def spoil (m : MachineRecord) : MachineRecord := { m with checkWord := m.checkWord + 1 }
def spoilAccount (a : AccountRecord) : AccountRecord := { a with checkWord := a.checkWord + 1 }
def inState (st : MachineState) : MachineRecord := machineStamp { machine with state := st }
def accountOf (st : AccountState) : AccountRecord := accountStamp { account with state := st }

theorem meets_MachineInstallFollowsR11 : Ready site ∧ (lowestFree site.machines 1024).getD 0 = 0 := by decide +kernel

theorem meets_MachineAmendChangeFollowsR12 :
    Ready site ∧ tableGet site.machines 52 = some machine ∧ machine.checkWord = machineCheck machine := by decide +kernel

theorem meets_MachineAmendRewriteFollowsR14 :
    Ready site ∧ tableGet site.machines 52 = some machine
    ∧ Ready (machineIn (spoil (inState .quarantined)))
    ∧ tableGet (machineIn (spoil (inState .quarantined))).machines 52 = some (spoil (inState .quarantined)) := by decide +kernel

theorem meets_MachineStatesFollowR17R19 :
    Ready site ∧ tableGet site.machines 1023 = none
    ∧ (∀ st ∈ [MachineState.retiring, .quarantined], Ready (machineIn (inState st))
      ∧ tableGet (machineIn (inState st)).machines 52 = some (inState st) ∧ (inState st).state = st)
    ∧ (∀ st ∈ [MachineState.active, .suspended], tableGet (machineIn (spoil (inState st))).machines 52 = some (spoil (inState st))
      ∧ (spoil (inState st)).checkWord ≠ machineCheck (spoil (inState st))
      ∧ (inState st).checkWord = machineCheck (inState st)) := by decide +kernel

theorem meets_MachineStatesFollowR17R19_retire :
    (∃ m, tableGet (sessionAt .ready fill).machines 52 = some m ∧ m.state ≠ .retiring ∧ m.fuelLink.isSome = true)
    ∧ (machine.state ≠ .retiring ∧ machine.fuelLink = none ∧ machine.fluidLink = none)
    ∧ (∀ k ∈ machine.fuel.toList ++ machine.fluid.toList, (tableGet site.tagIndex k.tag).map TagTarget.slot = some 52)
    ∧ (∀ k ∈ machine.fuel.toList, ∀ u ∈ machine.fluid.toList, k.tag ≠ u.tag) :=
  ⟨⟨machineStamp { machine with held := 450000000, fuelLink := some .h1 }, by decide +kernel, by decide, by decide⟩,
    by decide +kernel⟩

theorem meets_RecordReadsVerifyR15R50_machine :
    Ready site ∧ tableGet site.machines 52 = some machine ∧ machine.checkWord = machineCheck machine
    ∧ (∀ st ∈ [MachineState.quarantined, .retiring, .active], Ready (machineIn (spoil (inState st)))
      ∧ tableGet (machineIn (spoil (inState st))).machines 52 = some (spoil (inState st))
      ∧ (spoil (inState st)).checkWord ≠ machineCheck (spoil (inState st)) ∧ (spoil (inState st)).state = st)
    ∧ tableGet site.tagIndex fuelTag = some { slot := 52, tank := .fuel }
    ∧ tableFind (fun _ r => r.number == 30118) site.machines = some (52, machine) := by decide +kernel

theorem meets_RecordReadsVerifyR15R50_account :
    Ready site ∧ tableGet site.accounts 3 = some account ∧ account.checkWord = accountCheck account
    ∧ (∀ st ∈ [AccountState.quarantined, .opened], tableGet (accountIs (spoilAccount (accountOf st))).accounts 3
        = some (spoilAccount (accountOf st))
      ∧ (spoilAccount (accountOf st)).checkWord ≠ accountCheck (spoilAccount (accountOf st)))
    ∧ tableFind (fun _ r => r.number == 501) site.accounts = some (3, account) := by decide +kernel

theorem meets_IndexAndResolutionFollowR6R9 :
    (∀ k ∈ (some fuelTank).toList, ∀ u ∈ (some fluidTank).toList, k.tag ≠ u.tag)
    ∧ 0 < account.references ∧ tableGet site.accounts 3 = some account ∧ tableGet site.accounts 12 = some account12
    ∧ resolve fuelTag site = .machine { slot := 52, tank := .fuel } ∧ resolve 1 site = .default .refuse := by decide +kernel

theorem meets_TagAndRangeCommandsComplete :
    Ready site ∧ (1 ≤ 2 ^ 48 - 1 ∧ 2 ^ 48 - 1 < 2 ^ 48) ∧ site.ranges[7]? = some RangeEntry.cold := by decide +kernel

theorem meets_ReaderCommandsFollowR38R39 : Ready site := by decide +kernel

theorem meets_ReaderLineFollowsR27R31_fifo :
    site.supply.power = .running ∧ (List.replicate 31 (entry 1)).length < 32 ∧ 32 ≤ (List.replicate 32 (entry 1)).length
    ∧ (readerAt { reader with fifo := List.replicate 32 (entry 1) }).readers.h1.fifo = List.replicate 31 (entry 1) ++ [entry 1]
    ∧ site.readers.h1.fifo = [] ∧ site.readers.h1.frame = none := by decide +kernel

def collecting (n : Nat) (expected : Option Nat) : ReaderFrame :=
  { bytes := List.replicate n 9, expected := expected, damage := none }

theorem meets_ReaderLineFollowsR27R31_frame :
    (∀ n ∈ [6, 7], (readerAt { reader with frame := some (collecting 1 (some 9)), runCount := n }).readers.h1.fifo = []
      ∧ (readerAt { reader with frame := some (collecting 1 (some 9)), runCount := n }).readers.h1.frame
        = some (collecting 1 (some 9)))
    ∧ 6 < 7 ∧ 7 ≤ 7 := by decide +kernel

theorem meets_ReaderFramesFollowR28R30 :
    (readerAt { reader with fifo := [entry 9] }).readers.h1.fifo = entry 9 :: []
    ∧ reader.frame = none
    ∧ ((collecting 1 (some 9)).expected = some 9 ∧ (collecting 1 (some 9)).bytes.length ≠ 9)
    ∧ ((collecting 9 (some 9)).expected = some 9 ∧ (collecting 9 (some 9)).bytes.length = 9)
    ∧ ((collecting 30 none).expected = none ∧ (collecting 30 none).bytes.length < 31)
    ∧ 31 ≤ (collecting 31 none).bytes.length ∧ crc8 [2, 2] ≠ 0 := by decide +kernel

theorem meets_PresenceFollowsR32R36 :
    39 < (Reader.cold 0).minQuality ∧ (Reader.cold 0).minQuality ≤ 40
    ∧ ((Reader.cold 0).present.map Presence.tag ≠ some 65 ∧ (Reader.cold 0).candidate ≠ some 65)
    ∧ reader.present = some (presence fuelTag) ∧ (presence fuelTag).tag ≠ 65
    ∧ site.supply.power = .running ∧ reader.condition ≠ .absent
    ∧ (readerAt { reader with condition := .absent }).readers.h1.condition = .absent := by decide +kernel

theorem meets_AccountOpenAmendFollowR47R49 :
    Ready site ∧ tierOf 0 = some .one ∧ tierOf 3 = some .four ∧ (lowestFree site.accounts 256).getD 0 = 0
    ∧ tableGet site.accounts 3 = some account ∧ account.checkWord = accountCheck account := by decide +kernel

theorem meets_AccountStopResumeRetireFollowR51R52 :
    Ready site ∧ tableGet site.accounts 3 = some account ∧ account.state ≠ .quarantined
    ∧ account.checkWord = accountCheck account
    ∧ tableGet (accountIs (accountOf .quarantined)).accounts 3 = some (accountOf .quarantined)
    ∧ (accountOf .quarantined).state = .quarantined := by decide +kernel

theorem meets_SettlementAndPeriodsFollowR53R55 :
    Ready site ∧ tableGet site.accounts 3 = some account ∧ account.state ≠ .quarantined
    ∧ account.checkWord = accountCheck account
    ∧ (∀ p, account.previous = some p → p.unread = false) ∧ account.previous.map Statement.period ≠ some 14
    ∧ (∃ a p, tableGet (after (.periodClose 3) site).accounts 3 = some a ∧ a.checkWord = accountCheck a
      ∧ a.previous = some p ∧ p.unread = true ∧ p.period = 14) := by
  refine ⟨by decide +kernel, by decide +kernel, by decide +kernel, by decide +kernel, ?_, by decide +kernel, ?_⟩
  · intro p hp
    obtain rfl := Option.some.inj (hp.symm.trans (rfl : account.previous = some _))
    rfl
  · exact ⟨accountStamp { account with
        previous := some { period := 14, closeTime := 1000033600, figures := account.current, unread := true }
        current := noFigures, period := 15 }, _, by decide +kernel, by decide +kernel, rfl, rfl, rfl⟩

theorem meets_PriceCommandsFollowR56 : Ready site ∧ tierOf 3 = some .four ∧ tierOf 4 = none := by decide +kernel

def gauged : GaugeFigures := { level := 12475, temperature := 280, gross := 6347000000, net := 6278515870, variance := 22724130 }

theorem meets_CompartmentCommandsFollowR66R68 :
    Ready site ∧ fourOf 1 = some .one ∧ fourOf 4 = some .four ∧ site.compartments.four.lastGauge = none
    ∧ (after (.probeSample (samplesAt 12480)) gauging).compartments.three.lastGauge.bind GaugeResult.figures = some gauged
    ∧ Ready (after (.probeSample (samplesAt 12480)) gauging) := by decide +kernel

theorem meets_StrapAndGaugeCommandsFollowR69R74 : Ready site ∧ fourOf 1 = some .one ∧ fourOf 4 = some .four := by decide +kernel

theorem meets_GaugeArithmeticFollowsR71R73 :
    strapOk strapPoints = true ∧ strapPoints = [] ++ ⟨12000, 6100⟩ :: ⟨13000, 6620⟩ :: []
    ∧ strapPoints = [⟨12000, 6100⟩] ++ [⟨13000, 6620⟩]
    ∧ 12000 ≤ (StrapPoint.mk 12000 6100).level ∧ (StrapPoint.mk 13000 6620).level < 13001
    ∧ (StrapPoint.mk 12000 6100).level < 12001 ∧ 13000 ≤ (StrapPoint.mk 13000 6620).level := by decide +kernel

theorem meets_ProbeSamplingFollowsR72R76 :
    gauging.supply.power = .running ∧ gauging.compartments.one.gauge = none
    ∧ gauging.compartments.three.gauge = some { origin := .host, samples := 21, recent := recentLevels }
    ∧ recentLevels.length = 16
    ∧ (samplesAt 32000).one.statusFault = false ∧ (samplesAt 32000).one.level ≤ 32000 ∧ 32000 < (samplesAt 32001).one.level
    ∧ Int.tdiv (recentLevels.map Prod.snd).sum 16 = 280 := by decide +kernel

theorem meets_RestockComparisonFollowsR64 :
    (available (two site) < 2600000000 ↔ (two site).restockNeeded = true)
    ∧ available { two site with committed := 600000001 } < 2600000000
    ∧ (2600000000 : Int) ≤ available { two site with committed := 600000000, restockNeeded := true } := by decide +kernel

theorem meets_TagChecksFollowR80 :
    tableGet site.tagIndex fuelTag = some { slot := 52, tank := .fuel } ∧ tableGet site.machines 52 = some machine
    ∧ machine.checkWord = machineCheck machine ∧ tableGet site.accounts machine.account = some account
    ∧ account.checkWord = accountCheck account ∧ machine.fuel = some fuelTank
    ∧ hoseCheck .h1 site = none
    ∧ resolve rangeTag site = .range 1 (range 0x5A100000 0xFFFFFFF00000 .refer 0 ⟨true, true, false⟩ 20000)
    ∧ resolve 0x5A000001 site = .range 0 (range 0x5A000000 0xFFFFFF000000 .allow 12 ⟨true, true, false⟩ 400)
    ∧ tableGet site.accounts 12 = some account12 ∧ resolve 1 site = .default .refuse := by decide +kernel

/-- 5.7: the candidates, compartments 2 and 1, whose stock the unreduced hold of 419 L exceeds; at the site's own stock the
first candidate qualifies. -/
theorem meets_HoldFollowsR84R86 :
    [(.two, .g1), (.one, .g2)] = (([.two, .one, .three, .four] : List CompId).filterMap (fun c =>
      (cutToStock.compartments.get c).grade.bind (fun g =>
        if inSet ⟨true, true, false⟩ g = true ∧ (cutToStock.compartments.get c).state = .inService then some (c, g) else none))
        : List (CompId × Grade))
    ∧ available (cutToStock.compartments.get .two) < 419000000 ∧ available (cutToStock.compartments.get .one) < 419000000
    ∧ available (cutToStock.compartments.get .two) < available (cutToStock.compartments.get .one)
    ∧ (419000000 : Int) ≤ available (site.compartments.get .two)
    ∧ (([] : List CompId).filterMap (fun _ => (none : Option (CompId × Grade)))) = [] := by decide +kernel

def fuelTerms : Terms := machineTerms .tag (some fuelTag) none 52 .fuel fuelTank machine

theorem meets_AuthorisationTakesHoldsR88 :
    fuelTerms.machine = some (52, .fuel) ∧ tableGet site.machines 52 = some machine
    ∧ tableGet site.accounts fuelTerms.account = some account := by decide +kernel

theorem meets_AuthoriseManualFollowsR82 :
    Ready site ∧ hoseOf 1 = some .h1 ∧ tableFind (fun _ r => r.number == 30118) site.machines = some (52, machine)
    ∧ machine.checkWord = machineCheck machine ∧ tableGet site.accounts machine.account = some account
    ∧ account.checkWord = accountCheck account ∧ machine.fuel = some fuelTank
    ∧ [HoseState.idle, .complete, .locked, .outOfService].contains (h1 site).state = true
    ∧ Ready (sessionAt .ready fill) ∧ (h1 (sessionAt .ready fill)).state = .ready
    ∧ (settleHold .h1 (machineTerms .manual none (some 100) 52 .fuel fuelTank machine) account site).isOk = true := by decide +kernel

/-- The referred request of 5.6 with its tag present. -/
def referredPresent : State := { referredAt rangeTag with readers := (readerAt { reader with present := some (presence rangeTag) }).readers }

theorem meets_ReferRepliesFollowR91R92 :
    Ready site ∧ hoseOf 1 = some .h1 ∧ (h1 site).state ≠ .referred
    ∧ Ready referredPresent ∧ (h1 referredPresent).state = .referred
    ∧ (h1 referredPresent).waiting = some { tag := rangeTag, entry := some 1 }
    ∧ tableGet referredPresent.accounts 12 = some account12 ∧ account12.checkWord = accountCheck account12
    ∧ account12.state = .opened ∧ (accountOf .stopped).state ≠ .opened
    ∧ referredPresent.readers.h1.present = some (presence rangeTag) := by decide +kernel

theorem meets_HoseSetupFollowsR96R97 :
    Ready site ∧ hoseOf 3 = some .h3 ∧ setupFields.preference = ([.two, .one] : List CompId).map Four.number := by decide +kernel

theorem meets_HoseReadServiceFieldStatusFollowR98R101 :
    Ready site ∧ hoseOf 1 = some .h1 ∧ [HoseState.idle, .complete, .locked].contains (h1 site).state = true
    ∧ (h1 (after (.hoseService 1 .outOfService) site)).state = .outOfService
    ∧ (h1 (after (.hoseService 1 .outOfService) site)).returnState = some .idle
    ∧ [HoseState.idle, .complete, .locked, .outOfService].contains (h1 (sessionAt .ready fill)).state = false := by decide +kernel

theorem meets_RewindFollowsR108R109 :
    drawn.supply.power = .running ∧ drawn.store.write = none ∧ drawn.field.levels.stow.get .h2 ≠ true
    ∧ (after (.rewind 2) drawn).hoses.h2.outputs.reel = true
    ∧ (after (.rewind 2) drawn).hoses.h2.rewindTimer = some 40000
    ∧ (after (.rewind 2) drawn).field.levels.stow.get .h2 ≠ true := by decide +kernel

theorem meets_PwmTemperatureSealFollowR101R104 : site.supply.power = .running ∧ site.field.levels.sealClosed ≠ false := by
  decide +kernel

def openAccount : AccountRecord := accountStamp { account with held := 8392500, openSessions := 1 }
def linked : MachineRecord := machineStamp { machine with held := 450000000, fuelLink := some .h1 }

theorem meets_SessionCloseFollowsR128R130 :
    (h1 (sessionAt .ready fill)).session = some fill ∧ fill.machine = some (52, .fuel)
    ∧ tableGet (sessionAt .ready fill).machines 52 = some linked ∧ linked.state ≠ .retiring
    ∧ tableGet (sessionAt .ready fill).accounts 3 = some openAccount ∧ fill.moneyHold ≤ openAccount.held
    ∧ 1 ≤ openAccount.openSessions ∧ fill.hold * 1000000 - fill.net ≤ (two (sessionAt .ready fill)).committed
    ∧ (some StopCause.hostStop).or fill.stopCause = some .hostStop := by decide +kernel

theorem meets_HoseStopCollectReadFollowR123R132 :
    (∀ st ∈ [HoseState.ready, .flowing, .paused, .stopping], Ready (sessionAt st fill) ∧ (h1 (sessionAt st fill)).state = st
      ∧ (h1 (sessionAt st fill)).session = some fill)
    ∧ hoseOf 1 = some .h1
    ∧ [HoseState.ready, .flowing, .slowing, .paused, .stopping].contains (h1 site).state = false := by decide +kernel

theorem meets_StartInputFollowsR114R118 :
    (∀ st ∈ [HoseState.ready, .paused], (sessionAt st fill).supply.power = .running
      ∧ (h1 (sessionAt st fill)).session = some fill ∧ (sessionAt st fill).field.levels.start.get .h1 ≠ true
      ∧ (sessionAt st fill).field.levels.offHook.get .h1 = true ∧ (h1 (sessionAt st fill)).state = st)
    ∧ (site.readers.get .h1).present.map Presence.tag = fill.tag
    ∧ ((450 * 1000000 : Int) - 448500000 ≤ (h1 site).setup.lead * 100000)
    ∧ ¬ ((450 * 1000000 : Int) - 448499999 ≤ (h1 site).setup.lead * 100000) := by decide +kernel

/-- H1 flowing with its start input asserted. -/
def pressed : State := after (.startInput .h1 true) (sessionAt .ready fill)

theorem meets_StartInputFollowsR114R118_released :
    pressed.supply.power = .running ∧ pressed.field.levels.start.get .h1 ≠ false ∧ (h1 pressed).state = .flowing
    ∧ (h1 pressed).session.isSome = true
    ∧ ({ sessionAt .ready fill with field := State.reset.field } : State).field.levels.offHook.get .h1 = false := by decide +kernel

theorem meets_NozzleSwitchFollowsR79R119 :
    (∀ st ∈ [HoseState.ready, .flowing, .stopping], (sessionAt st fill).supply.power = .running
      ∧ (sessionAt st fill).field.levels.offHook.get .h1 ≠ false ∧ (h1 (sessionAt st fill)).state = st)
    ∧ (referredAt rangeTag).field.levels.offHook.get .h1 ≠ false ∧ (h1 (referredAt rangeTag)).state = .referred
    ∧ (after (.nozzleSwitch .h1 false) site).field.levels.offHook.get .h1 ≠ true
    ∧ ((after (.nozzleSwitch .h1 false) site).readers.get .h1).present = some (presence fuelTag)
    ∧ site.field.levels.offHook.get .h2 ≠ true ∧ (site.readers.get .h2).present = none := by decide +kernel

/-- H1 with tag 5, whose event its port has raised, after the nozzle was hung and lifted. -/
def liftedTwice : State :=
  after (.nozzleSwitch .h1 true) (after (.nozzleSwitch .h1 false)
    (readerAt { reader with events := [.present 5], present := some (presence 5) }))

/-- R79: the request refused at the lift is not made again at the tag-present taken after it, and is at a further lift. -/
theorem test_pair_that_stays_complete :
    (h1 liftedTwice).lastRefusal.isSome = true
    ∧ (let later : State := { liftedTwice with timebase := { liftedTwice.timebase with count := 1000099999 } }
       h1 (after (.tagPresent .h1 5) later) = h1 later
       ∧ (h1 (after (.nozzleSwitch .h1 true) (after (.nozzleSwitch .h1 false) later))).lastRefusal ≠ (h1 later).lastRefusal)
    := by decide +kernel

theorem meets_TagEventsFollowR79R119 :
    ([HoseState.idle, .complete, .locked, .outOfService].contains (h1 site).state = true
      ∧ (site.readers.get .h1).present = some (presence fuelTag) ∧ site.field.levels.offHook.get .h1 = true
      ∧ (site.readers.get .h2).present = none)
    ∧ (h1 site).paired ≠ some fuelTag ∧ (h1 liftedTwice).paired = some 5 ∧ (h1 liftedTwice).state = .idle
    ∧ (liftedTwice.readers.get .h1).present = some (presence 5) ∧ liftedTwice.field.levels.offHook.get .h1 = true
    ∧ (h1 (referredAt rangeTag)).state = .referred
    ∧ (∀ st ∈ [HoseState.ready, .flowing, .slowing, .paused, .stopping], (h1 (sessionAt st fill)).session = some fill
      ∧ (h1 (sessionAt st fill)).state = st ∧ (sessionAt st fill).supply.power = .running)
    ∧ fill.kind ≠ .manual ∧ fill.tag = some fuelTag ∧ fill.tag ≠ some 5
    ∧ ({ fill with kind := .manual } : Session).kind = .manual := by decide +kernel

theorem meets_SessionTimersFollowR93R127 :
    ((h1 (referredAt rangeTag)).state = .referred ∧ (h1 (referredAt rangeTag)).referTimer = some 30000)
    ∧ ((h1 (sessionAt .ready fill)).state = .ready ∧ (h1 (sessionAt .ready fill)).readyTimer = some 120000)
    ∧ ((h1 (sessionAt .paused fill)).state = .paused ∧ (h1 (sessionAt .paused fill)).resumeTimer = some 60000)
    ∧ ((h1 (sessionAt .stopping fill)).state = .stopping ∧ (h1 (sessionAt .stopping fill)).settleTimer = some 5000
      ∧ (sessionAt .stopping fill).channels.one.n = 0
      ∧ 0 < (after (.forwardPulse .one 5) (sessionAt .stopping fill)).channels.one.n) := by decide +kernel

theorem meets_EmergencyAndBrakeFollowR103R124 :
    site.supply.power = .running ∧ site.field.levels.estop ≠ true ∧ site.field.levels.park ≠ false
    ∧ (after (.emergencyStop true) site).field.levels.estop ≠ false
    ∧ (after (.parkBrake false) site).field.levels.park ≠ true
    ∧ (∀ st ∈ [HoseState.ready, .flowing, .stopping], (h1 (sessionAt st fill)).state = st
      ∧ (h1 (sessionAt st fill)).outputs.reel = false)
    ∧ (h1 (runAt .proveReady run)).state = .proveReady ∧ (h1 (referredAt rangeTag)).state = .referred := by decide +kernel

theorem meets_RequestPauseStopSpelledOut : (sessionAt .flowing fill).hoses.get .h1 = h1 (sessionAt .flowing fill) := rfl

theorem meets_PulserRowsFollowR136R138 :
    site.supply.power = .running ∧ site.channels.one.debt = 0 ∧ site.channels.one.n < 65535
    ∧ 0 < (after (.reversePulse .one) site).channels.one.debt
    ∧ 65535 ≤ ({ Channel.cold with n := 65535 }).n ∧ ({ Channel.cold with n := 65535 }).fullReported = false
    ∧ ({ Channel.cold with fullReported := true }).fullReported = true
    ∧ (-4 < ({ Channel.cold with step := -2 }).step - 1 ∧ ({ Channel.cold with step := 2 }).step + 1 < 4)
    ∧ ({ Channel.cold with step := 3 }).step = 3 ∧ ({ Channel.cold with illegal := 2 }).illegal = 2 := by decide +kernel

theorem meets_WindowArithmeticFollowsR140R144 :
    2 ≤ window88.channels.one.n ∧ window88.channels.one.first = some 600 ∧ window88.channels.one.last = some 250000
    ∧ (250000 + 2 ^ 32 - 600) % 2 ^ 32 ≠ 0
    ∧ 700 = min ((292 - 1) * 10000 * 60 / ((250000 + 2 ^ 32 - 600) % 2 ^ 32)) 65535
    ∧ site.channels.one.n ≤ 1 ∧ linPointsOk (meter.firstPoint :: meter.morePoints) = true
    ∧ (meter.firstPoint.flow < 401 ∧ 799 < 800) := by decide +kernel

/-- 7.9: a window of the paused fill; and a window after the last session of an idle hose. -/
def idleCreep : State :=
  { site with hoses := { site.hoses with h1 := { site.hoses.h1 with lastSource := some .two, leakLatch := true } } }

theorem meets_WindowDistributionFollowsR139R148 :
    site.supply.power = .running
    ∧ ((h1 (sessionAt .paused fill)).state = .paused ∧ (h1 (sessionAt .paused fill)).session = some fill
      ∧ fill.compartment = .two ∧ fill.gross + 2917103 < 2 ^ 40
      ∧ min 2874974 (fill.hold * 1000000 - fill.net) ≤ (two (sessionAt .paused fill)).committed)
    ∧ ((h1 idleCreep).state = .idle ∧ (h1 idleCreep).lastSource = some .two ∧ (h1 idleCreep).leakLatch = true
      ∧ idleCreep.channels.one.unattributed + 90000 < 2 ^ 48)
    ∧ idleCreep.channels.one.debt * idleCreep.store.meters.one.pulseVolume ≤ 2000000
    ∧ ({ Channel.cold with debt := 200 }).debt * 10000 ≤ 2000000 ∧ (-500 ≤ (-500 : Int) ∧ (1000 : Int) ≤ 1000) := by decide +kernel

/-- A window result of `n` pulses at flow `q`. -/
def resultOf (n q : Nat) : WindowResult :=
  { meter := .one, start := 0, length := 200, n := n, q := q, lf := 65536, gross := 0, temperature := 150, fallback := false,
    vcf := 1000000, net := 0, destination := .session }

/-- The run counts that the statement names, beside the thresholds of H1's setup. -/
def runs (n q lowRun overRun : Nat) : Nat × Nat :=
  (if n < (h1 site).setup.noFlowThreshold then lowRun + 1 else 0, if (h1 site).setup.maxFlow * 125 < q * 100 then overRun + 1 else 0)

theorem meets_WindowHandOverFollowsR105R126 :
    (h1 (sessionAt .flowing fill)).state = .flowing ∧ (h1 (sessionAt .flowing fill)).session = some fill
    ∧ ((450000000 : Int) - 448500000 ≤ (h1 site).setup.lead * 100000)
    ∧ ((h1 site).setup.lead * 100000 < (450000000 : Int) - 448499999)
    ∧ (h1 site).setup.noFlowWindows ≤ (runs 1 0 19 0).1 ∧ (runs 2 0 19 0).1 < (h1 site).setup.noFlowWindows
    ∧ 2 ≤ (runs 9 1251 0 1).2 ∧ (runs 9 1250 0 1).2 < 2
    ∧ (resultOf 0 0).n = 0 ∧ (resultOf 1 5).n ≠ 0
    ∧ (h1 (sessionAt .stopping fill)).state = .stopping ∧ (h1 (sessionAt .stopping fill)).windowAfterClosing = false
    ∧ ({ h1 (sessionAt .stopping fill) with windowAfterClosing := true }).windowAfterClosing = true := by decide +kernel

def gradeWrite : Instr := .gradeCoefficientWrite .g1 2000 (-400)

theorem meets_MetrologyStoreFollowsR151R158 :
    site.supply.power = .running ∧ site.store.write = none
    ∧ (after meterWrite site).supply.power = .running
    ∧ (after meterWrite site).store.write
      = some { command := meterWrite, change := .meter .two 20000 { flow := 10, factor := 65536 } [] }
    ∧ (after gradeWrite site).store.write
      = some { command := gradeWrite, change := .grade .g1 { alpha := 2000, fallback := -400 } } := by decide +kernel

theorem meets_ProvingRunCommandsFollowR159R164 :
    Ready site ∧ Ready (runAt .proveReady run) ∧ (h1 (runAt .proveReady run)).state = .proveReady
    ∧ (h1 (runAt .proveReady run)).readyTimer = some 120000
    ∧ (h1 (runAt .proveHeld { run with settled := false })).state = .proveHeld
    ∧ (h1 (runAt .proveHeld { run with settled := false })).settleTimer = some 5000
    ∧ (site.channels.one.n = 0 ∧ site.channels.one.result.elim 0 WindowResult.n = 0) := by decide +kernel

/-- 9.4's judgement: point 1 at 459 L/min, new factor 65,597. -/
def judged94 : RunResult := { observed := 499880, averageFlow := 459, point := 1, oldFactor := 65667, newFactor := 65597 }

theorem meets_ProveResultFollowsR163 :
    (runAt .proveHeld run).supply.power = .running ∧ (h1 (runAt .proveHeld run)).run = some run
    ∧ (h1 (runAt .proveHeld run)).state = .proveHeld ∧ run.settled = true ∧ (runAt .proveHeld run).store.write = none
    ∧ 459 = run.indicated * 60 / (run.flowingTime * 1000)
    ∧ [LinPoint.mk 400 65667, ⟨800, 65405⟩][1 - 1]? = some ⟨400, 65667⟩
    ∧ |(459 : Int) - 400| ≤ |(459 : Int) - 800|
    ∧ run.indicated ≠ 0 ∧ |(499880 * 1000 : Int) - run.indicated| * 100 ≤ run.indicated * 2
    ∧ (run.indicated * 2 : Int) < |(485000 * 1000 : Int) - run.indicated| * 100
    ∧ 65597 = max 58982 (min ((2 * (65667 * 499880 * 1000) + run.indicated) / (2 * run.indicated)) 72090)
    ∧ (after (.proveResult 1 499880) (runAt .proveHeld run)).store.write
      = some { command := .proveResult 1 499880, change := .factor .h1 judged94 } := by decide +kernel

theorem meets_LoadOrdersFollowR167R176 :
    Ready site ∧ tableGet site.loads.orders 7 = none ∧ (lowestFree site.loads.orders 8).getD 0 = 0
    ∧ (∀ st ∈ [LoadState.planned, .armed, .loading, .settling, .complete], Ready (orderAt (order st))
      ∧ tableGet (orderAt (order st)).loads.orders 0 = some (order st)) := by decide +kernel

theorem meets_LoadArmFollowsR169R170 :
    Ready (orderAt (order .planned)) ∧ tableGet (orderAt (order .planned)).loads.orders 0 = some (order .planned)
    ∧ tableGet site.loads.orders 7 = none ∧ 7 < 8 := by decide +kernel

theorem meets_InletEventsFollowR170R174 :
    (∀ st ∈ [LoadState.armed, .loading, .settling], (orderAt (order st)).supply.power = .running
      ∧ activeOrder (orderAt (order st)) = some (0, order st) ∧ (orderAt (order st)).field.levels.coupled = false
      ∧ (orderAt (order st)).field.levels.high.get .three = false)
    ∧ (after (.inletCoupling true) (orderAt (order .loading))).field.levels.coupled = true
    ∧ (after (.highLevelSwitch .three true) (orderAt (order .armed))).field.levels.high.get .three = true
    ∧ (orderAt (order .armed)).loads.armTimer = some 900000 ∧ (orderAt (order .loading)).loads.idleTimer = some 30000
    ∧ (orderAt (order .settling)).loads.settleTimer = some 120000
    ∧ (three (orderAt (order .settling))).gauge = none ∧ (three (orderAt (order .settling))).strap.isSome = true
    ∧ (three (unstrapped (orderAt (order .settling)))).strap = none ∧ activeOrder site = none
    ∧ (∀ p ∈ site.loads.orders, p.2.state ≠ .loading) := by decide +kernel

theorem meets_TimebaseFollowsR179R182 :
    site.supply.power = .running ∧ site.store.write = none ∧ site.timebase.rolloverSecond < 86400
    ∧ site.timebase.clockSet = true ∧ State.reset.timebase.clockSet = false
    ∧ (site.timebase.count < 1000101600 ∧ 1000101600 ≤ 1000101600 ∧ 1000101600 % 86400 = site.timebase.rolloverSecond)
    ∧ (1000187999 + 1) % 2 ^ 32 % 86400 = site.timebase.rolloverSecond
    ∧ (site.timebase.count + 1) % 2 ^ 32 % 86400 ≠ site.timebase.rolloverSecond := by decide +kernel

/-- No rollover instant lies between the clock and a set one second short of it (11.3). -/
theorem meets_TimebaseFollowsR179R182_no_instant :
    ∀ t, site.timebase.count < t → t ≤ 1000101599 → t % 86400 ≠ site.timebase.rolloverSecond := by
  intro t h1 h2
  change 1000033600 < t at h1
  change t % 86400 ≠ 21600
  omega

theorem meets_FaultCommandsFollowR186R187 :
    Ready (faulted (.hose .h1) .leak (hoseAt .locked)) ∧ (h1 (faulted (.hose .h1) .leak (hoseAt .locked))).state = .locked
    ∧ stopValid (.meter .one) (faulted (.hose .h1) .leak (hoseAt .locked)) = false
    ∧ stopValid (.meter .four) (faulted (.meter .four) .pulser site) = true ∧ stopValid .inlet site = false := by decide +kernel

theorem meets_ReportFollowsR185 :
    (bankKinds (.hose .h1))[0]? = some .leak ∧ (bankGet site.banks (.hose .h1)).enable.getLsbD 0 = true
    ∧ (bankGet site.banks (.hose .h1)).record = none ∧ -2147483648 ≤ (-2147483648 : Int)
    ∧ (bankGet (after (.faultControl 4 30) site).banks (.hose .h1)).enable.getLsbD 0 = false
    ∧ ((bankGet (faulted (.hose .h1) .noFlow site).banks (.hose .h1)).record.map (fun f => severityCode f.severity)).getD 9
      < severityCode (severityOf .leak)
    ∧ severityCode (severityOf .noFlow)
      ≤ ((bankGet (faulted (.hose .h1) .leak site).banks (.hose .h1)).record.map (fun f => severityCode f.severity)).getD 0 := by
  decide +kernel

/-- Two DONE sources, a hose and a compartment, beside a kind of lower priority. -/
def noticed : State := { site with notices := [.doneHose .h3, .doneComp .one, .restarted] }

theorem meets_NoticeCommandsFollowR188R189 :
    Ready site ∧ Ready { site with notices := [] } ∧ Ready noticed ∧ Notice.doneHose .h3 ∈ noticed.notices
    ∧ (∀ m ∈ noticed.notices, m ≠ .doneHose .h3 → noticeKind (.doneHose .h3) < noticeKind m ∨ m = .doneComp .one)
    ∧ noticed.notices.Pairwise (fun a b => noticeRank a ≤ noticeRank b ∧ a ≠ b)
    ∧ (BitVec.ofNat 8 254).getLsbD (noticeKind (.fault .gauge) - 1) = false
    ∧ site.noticeMask.getLsbD (noticeKind .restarted - 1) = true := by decide +kernel

theorem meets_LinkFollowsR190R192 :
    site.supply.power = .running ∧ site.port.link = .idle ∧ site.port.executing = none ∧ site.store.write = none
    ∧ emptyFrame 0x02 = [0x02, 5, 0, 0] ++ [] ++ u16 (crc16 [0x02, 5, 0, 0]).toNat
    ∧ todoOf 0x02 [] = .run .identify ∧ todoOf 0xFF [] = .reply .invalid
    ∧ (after (.commandTransaction 1 (emptyFrame 0x02)) site).port.link ≠ .idle
    ∧ (after (.commandTransaction 1 (emptyFrame 0x02)) site).port.executing
      = some { code := 0x02, sequence := 5, todo := .run .identify, wanted := true }
    ∧ (after .identify (after (.commandTransaction 1 (emptyFrame 0x02)) site)).port.link = .result
    ∧ (after .identify (after (.commandTransaction 1 (emptyFrame 0x02)) site)).port.response.isSome = true
    ∧ (after .linkReset (after (.commandTransaction 1 (emptyFrame 0x02)) site)).port.link = .idle
    ∧ (after .linkReset (after (.commandTransaction 1 (emptyFrame 0x02)) site)).port.executing.isSome = true := by decide +kernel

theorem meets_WarmResetFollowsR183 :
    Ready site ∧ site.store.damaged = false ∧ site.supply.lossLatch = false ∧ State.reset.timebase.clockSet = false
    ∧ site.timebase.clockSet = true ∧ site.timebase.rolloverSecond < 86400
    ∧ State.reset.supply.lossLatch = false
    ∧ openState (h1 (sessionAt .flowing fill)).state = true ∧ (h1 (sessionAt .flowing fill)).session.isSome = true := by decide +kernel

theorem meets_PowerFollowsR183 :
    (after .retentionSupplyLoss site).supply.lossLatch = true ∧ (after .retentionSupplyLoss site).store.damaged = false
    ∧ site.field.levels.powerFail ≠ true ∧ site.supply.power = .running
    ∧ (after (.powerFailWarning true) site).field.levels.powerFail ≠ false
    ∧ (after (.powerFailWarning true) site).timebase.holdOff = some 20
    ∧ (after .powerFailHoldOffExpiry (after (.powerFailWarning true) site)).supply.power = .held
    ∧ openState (h1 (sessionAt .flowing fill)).state = true ∧ (h1 (sessionAt .flowing fill)).session = some fill := by decide +kernel

theorem meets_StepExecutesTheFrontCommand :
    site.pending = [] ∧ site.supply.power = .running ∧ site.port.executing = none
    ∧ (site.readers.toList.all (fun r => r.fifo.isEmpty && r.events.isEmpty)) = true
    ∧ (after (.commandTransaction 1 (emptyFrame 0x02)) site).port.executing.map Taken.todo = some (.run .identify) := by decide +kernel

theorem meets_IllFormedHostCommandsAreMalformed :
    Ready site ∧ fromHost (.machineRead 1024) = true ∧ wellFormed (.machineRead 1024) = false := by decide +kernel

theorem meets_EveryStepKeepsDrivePermitR110 : PermitLaw site ∧ step site = .next (stepped site) := by
  refine ⟨fun _ => ⟨fun _ => ⟨?_, ?_, ?_, rfl, ?_⟩, fun _ => rfl⟩, rfl⟩
  · intro id; cases id <;> rfl
  · intro id; cases id <;> rfl
  · intro id; cases id <;> rfl
  · intro p hp; exact absurd hp (List.not_mem_nil)

theorem meets_EveryStepKeepsBooksAndLoadsR62R166 :
    TablesWf (orderAt (order .loading)) ∧ BookLaw (orderAt (order .loading)) ∧ LoadLaw (orderAt (order .loading))
    ∧ step (orderAt (order .loading)) = .next (stepped (orderAt (order .loading))) := by
  have only : ∀ p ∈ (orderAt (order .loading)).loads.orders, p = (0, order .loading) := by
    intro p hp; exact List.mem_singleton.1 hp
  refine ⟨by decide +kernel, ?_, ⟨?_, ?_, ?_, ?_, ?_⟩, rfl⟩
  · intro c; cases c <;> decide
  · intro p hp q hq _ _; rw [only p hp, only q hq]
  · intro c
    constructor
    · intro h
      refine ⟨(0, order .loading), List.mem_singleton.2 rfl, rfl, ?_⟩
      cases c <;> first | rfl | exact absurd h (by decide)
    · rintro ⟨p, hp, -, hc⟩
      rw [only p hp] at hc
      subst hc
      rfl
  · intro _; exact ⟨(0, order .loading), List.mem_singleton.2 rfl, rfl⟩
  · intro h; exact absurd h (by decide)
  · intro h; exact absurd h (by decide)

theorem meets_TotalsAndParametersChangeOnlyAsStatedR148R153 :
    exec (.noticeMask 1) site = .next (after (.noticeMask 1) site) ∧ State.reset.supply.lossLatch = false
    ∧ site.store.damaged = false := ⟨rfl, by decide +kernel, by decide +kernel⟩


/-! ### Witnesses of the clauses on FREE slots, on numbers that name nothing and on records that fail their check -/

/-- Numbers that name no hose, compartment or bank, and slots that hold nothing: MALFORMED and NO_RECORD clauses. -/
theorem meets_clauses_on_absent_numbers :
    (hoseOf 0 = none ∧ hoseOf 4 = none ∧ fourOf 0 = none ∧ fourOf 5 = none ∧ bankOf 0 = none ∧ bankOf 14 = none
      ∧ bankOf 13 = some .table)
    ∧ (tableGet site.machines 1023 = none ∧ tableGet site.accounts 255 = none ∧ tableGet site.loads.orders 7 = none)
    ∧ tableGet site.tagIndex 1 = none ∧ site.machines.all (fun p => p.2.number != 1) = true
    ∧ site.accounts.all (fun p => p.2.number != 65535) = true
    ∧ (hoseOf 3 = some .h3 ∧ (site.hoses.get .h3).session = none)
    ∧ (2 : Nat) ^ 40 ≤ 1099511627776 ∧ machineFieldsOk sameFields = true
    ∧ machineFieldsOk { sameFields with number := 0 } = false ∧ tierOf 4 = none ∧ meter.firstPoint.flow = 400 := by decide +kernel

/-- Records that fail their check, in the states the failing clauses name. -/
theorem meets_clauses_on_failing_records :
    (∀ st ∈ [MachineState.active, .suspended], Ready (machineIn (spoil (inState st)))
      ∧ tableGet (machineIn (spoil (inState st))).machines 52 = some (spoil (inState st))
      ∧ (spoil (inState st)).checkWord ≠ machineCheck (spoil (inState st)))
    ∧ (∀ st ∈ [MachineState.retiring, .quarantined], tableGet (machineIn (inState st)).machines 52 = some (inState st))
    ∧ (∀ st ∈ [AccountState.opened, .stopped], Ready (accountIs (spoilAccount (accountOf st)))
      ∧ tableGet (accountIs (spoilAccount (accountOf st))).accounts 3 = some (spoilAccount (accountOf st))
      ∧ (spoilAccount (accountOf st)).checkWord ≠ accountCheck (spoilAccount (accountOf st)))
    ∧ tableGet (accountIs (accountOf .quarantined)).accounts 3 = some (accountOf .quarantined) := by decide +kernel

/-- AUTHORISE MANUAL: a number that no record holds, a record without the tank, a record that fails its check. -/
theorem meets_AuthoriseManualFollowsR82_refusals :
    Ready site ∧ (site.hoses.get .h1).state = .idle ∧ hoseCheck .h1 site = none
    ∧ tableFind (fun _ r => r.number == 1) site.machines = none
    ∧ (∃ m, tableFind (fun _ r => r.number == 30118) (machineIn m).machines = some (52, m) ∧ tankOf .fluid m = none)
    ∧ (Ready (machineIn (spoil machine)) ∧ hoseCheck .h1 (machineIn (spoil machine)) = none
      ∧ tableFind (fun _ r => r.number == 30118) (machineIn (spoil machine)).machines = some (52, spoil machine)
      ∧ (tankOf .fuel (spoil machine)).isSome = true ∧ (spoil machine).state = .active
      ∧ (spoil machine).checkWord ≠ machineCheck (spoil machine)) :=
  ⟨by decide +kernel, by decide +kernel, by decide +kernel, by decide +kernel,
    ⟨machineStamp { machine with fluid := none }, by decide +kernel, by decide +kernel⟩, by decide +kernel⟩

/-- REFER REPLY ACCEPT of a FREE account and of one that fails its check. -/
theorem meets_ReferRepliesFollowR91R92_failing :
    tableGet referredPresent.accounts 200 = none
    ∧ (∃ s : State, Ready s ∧ (h1 s).state = .referred ∧ tableGet s.accounts 12 = some (spoilAccount account12)
      ∧ (spoilAccount account12).state = .opened
      ∧ (spoilAccount account12).checkWord ≠ accountCheck (spoilAccount account12)) :=
  ⟨by decide +kernel, { referredPresent with accounts := [(3, account), (12, spoilAccount account12)] }, by decide +kernel,
    by decide +kernel, by decide +kernel, by decide +kernel, by decide +kernel⟩

/-- The emergency stop at a hose at rest whose reel runs. -/
theorem meets_EmergencyAndBrakeFollowR103R124_reel :
    (after (.rewind 2) drawn).hoses.h2.outputs.reel = true
    ∧ [HoseState.idle, .complete, .locked, .outOfService].contains (after (.rewind 2) drawn).hoses.h2.state = true := by
  decide +kernel

/-- The correction factor at the ends of its coefficients and temperatures (R153). -/
theorem meets_GaugeArithmeticFollowsR71R73_vcf :
    vcf 2000 850 = 860000 ∧ vcf 2000 (-400) = 1110000 ∧ vcf 0 850 = 1000000 ∧ vcf 1 145 = 1000001 ∧ vcf 1 155 = 999999 := by
  decide +kernel

/-! ### Witnesses of further clauses: receiver, held port, load gauge, kinds of session, runs, STOP faults, windows, inlet -/

theorem meets_ReaderLineFollowsR27R31_receiver :
    (∀ v ∈ [Receiver.quiet, .delivered, .breaking], (readerAt { reader with receiver := v }).supply.power = .running
      ∧ (readerAt { reader with receiver := v }).readers.h1.receiver = v)
    ∧ ((List.range 8).filter (fun i => (0x41 : Byte).getLsbD i)).length = 2 := by decide +kernel

/-- A port that hands an event over, one that does not, and frames closed by their count. -/
theorem meets_ReaderFramesFollowR28R30_closed :
    (readerAt { reader with events := [.lost 5], fifo := [entry 9] }).readers.h1.events ≠ []
    ∧ (readerAt { reader with fifo := [entry 9] }).readers.h1.events = [] ∧ reader.fifo = [] ∧ reader.present.isSome = true
    ∧ (collecting 10 (some 9)).damage = none ∧ judgeFrame (collecting 10 (some 9)).bytes = .rejected
    ∧ judgeFrame [2, 2, crc8 [2, 2]] = .empty ∧ FrameContent.empty ≠ .rejected := by decide +kernel

theorem meets_ProbeSamplingFollowsR72R76_load :
    (∀ st ∈ [LoadState.armed, .settling], activeOrder (orderAt (order st)) = some (0, order st)) := by decide +kernel

theorem meets_TagChecksFollowR80_verdicts :
    (judgeTag .h1 1 site = (.refused .unknownTag, site))
    ∧ (judgeTag .h1 rangeTag site = (.referred { tag := rangeTag, entry := some 1 }, site))
    ∧ (match judgeTag .h1 fuelTag cutToStock with
      | (.granted _ _, _) => true
      | _ => false) = true := by decide +kernel

/-- 5.6: the session of a range entry, without a machine, on a compartment with a host gauge in flight. -/
def rangeFill : Session := { fill with kind := .range, machine := none }

theorem meets_AuthorisationTakesHoldsR88_range :
    (rangeTerms 0x5A000001 (range 0x5A000000 0xFFFFFF000000 .allow 12 ⟨true, true, false⟩ 400)).machine = none
    ∧ tableGet site.accounts 12 = some account12
    ∧ (after (.gauge 3) site).compartments.three.gauge = some { origin := .host, samples := 0, recent := [] } := by
  decide +kernel

/-- A session of a range entry, and one on a RETIRING record that its close frees. -/
theorem meets_SessionCloseFollowsR128R130_kinds :
    rangeFill.machine = none ∧ (h1 (sessionAt .ready rangeFill)).session = some rangeFill
    ∧ tableGet (sessionAt .ready rangeFill).accounts rangeFill.account = some openAccount
    ∧ (∀ t ∈ machine.fuel.toList ++ machine.fluid.toList, (tableGet site.tagIndex t.tag).map TagTarget.slot = some 52)
    ∧ fuelTank.tag ≠ fluidTank.tag ∧ ({ linked with state := .retiring } : MachineRecord).fluidLink = none := by decide +kernel

def openRun : Run := { run with indicated := 0, flowingTime := 0, flowEnd := none, settled := false }

theorem meets_StartInputFollowsR114R118_run :
    (h1 (runAt .proveReady openRun)).state = .proveReady ∧ (h1 (runAt .proveReady openRun)).run = some openRun
    ∧ (runAt .proveReady openRun).field.levels.start.get .h1 ≠ true
    ∧ (runAt .proveReady openRun).field.levels.offHook.get .h1 = true
    ∧ ((openRun.indicated : Int) < (openRun.nominal : Int) * 1000000 - (h1 site).setup.lead * 100000)
    ∧ ¬ (((498500000 : Nat) : Int) < (openRun.nominal : Int) * 1000000 - (h1 site).setup.lead * 100000)
    ∧ (h1 (after (.startInput .h1 true) (runAt .proveReady openRun))).state = .proveFlowing
    ∧ (after (.startInput .h1 true) (runAt .proveReady openRun)).field.levels.start.get .h1 ≠ false
    ∧ (sessionAt .paused { fill with tag := some 5 }).readers.h1.present.map Presence.tag ≠ some 5 := by decide +kernel

theorem meets_ProvingStates :
    (∀ st ∈ [HoseState.proveReady, .proveFlowing, .proveHeld], (runAt st openRun).supply.power = .running
      ∧ (h1 (runAt st openRun)).state = st ∧ (runAt st openRun).field.levels.offHook.get .h1 ≠ false)
    ∧ (runAt .proveHeld run).store.write = none
    ∧ (h1 (runAt .proveHeld run)).outputs.reel = false
    ∧ (h1 (after (.proveResult 1 499880) (runAt .proveHeld run))).state = .proveHeld
    ∧ (h1 (after (.proveResult 1 499880) (runAt .proveHeld run))).outputs.reel = false
    ∧ (after (.proveResult 1 499880) (runAt .proveHeld run)).store.write
      = some { command := .proveResult 1 499880, change := .factor .h1 judged94 } := by decide +kernel

/-- 9.4: the valve closes at 498,500,000 µL indicated. -/
theorem test_run_is_held_at_its_target :
    (handToHose .h1 (resultOf 9 460) (runAt .proveFlowing { openRun with indicated := 498499999 })).hoses.h1.state = .proveFlowing
    ∧ (handToHose .h1 (resultOf 9 460) (runAt .proveFlowing { openRun with indicated := 498500000 })).hoses.h1.state = .proveHeld := by
  decide +kernel

/-- R120 and R121 at one window: both reported, the hose locked at its close. -/
theorem test_both_window_runs_report :
    (fun s : State => (s.banks.hose.h1.record.map FaultRecord.kind, s.banks.hose.h1.overflow,
        s.hoses.h1.session.bind Session.stopCause, s.hoses.h1.stopFaultFound))
      (handToHose .h1 (resultOf 1 1251)
        { sessionAt .flowing fill with
          hoses := { (sessionAt .flowing fill).hoses with
            h1 := { h1 (sessionAt .flowing fill) with lowFlowRun := 19, overspeedRun := 1 } } })
      = (some .overspeed, true, some .noFlow, true) := by decide +kernel

/-- R179: 5,000 ms of the instant are 5,000,000 µs of the capture counter. -/
theorem test_reachInstant_counts_the_capture_on :
    (reachInstant 5000 site).timebase.capture = 5000000 ∧ (reachInstant 0 site).timebase = site.timebase := by decide +kernel

/-- R194: base and mask of a range entry and a pulse volume take 8 bytes, little-endian. -/
theorem test_payload_numbers_of_8_bytes :
    todoOf 0x29 ([7, 1] ++ u64 0x5A000000 ++ u64 0xFFFFFF000000 ++ [2, 12, 3] ++ u16 400)
      = .run (.rangeWrite 7 (range 0x5A000000 0xFFFFFF000000 .allow 12 ⟨true, true, false⟩ 400))
    ∧ todoOf 0x90 ([2] ++ u64 20000 ++ [1] ++ u16 10 ++ u32 65536) = .run meterWrite := by decide +kernel

theorem meets_WindowDistributionFollowsR139R148_owners :
    (∀ st ∈ [HoseState.flowing, .slowing, .paused, .stopping], ownerOf .one (sessionAt st fill) = .session .h1)
    ∧ min (2 ^ 40) (fill.hold * 1000000 - fill.net) ≤ (two (sessionAt .flowing fill)).committed
    ∧ (h1 site).lastSource = none ∧ (h1 idleCreep).lastSource = some .two
    ∧ loadingOrder site = none ∧ loadingOrder (orderAt (order .loading)) = some (0, order .loading)
    ∧ tableGet (orderAt (order .loading)).loads.orders 0 = some (order .loading)
    ∧ (2000000 < 201 * meter.pulseVolume ∧ ¬ 2000000 < 200 * meter.pulseVolume) ∧ site.channels.one.probeValid = true := by
  decide +kernel

/-- R175: the watch of a SETTLING order whose inlet closed at 0, at a window that began 10 s later and at one 1 ms earlier. -/
theorem meets_InletEventsFollowR170R174_watch :
    (orderAt (order .settling)).loads.watch = some 0 ∧ activeOrder (orderAt (order .settling)) = some (0, order .settling)
    ∧ (handToLoad { resultOf 3 5 with start := 10000 } (orderAt (order .settling))).loads.lock = true
    ∧ handToLoad { resultOf 3 5 with start := 9999 } (orderAt (order .settling)) = orderAt (order .settling)
    ∧ (handToLoad (resultOf 3 5) (orderAt (order .loading))).loads.idleTimer = some 30000
    ∧ (after (.highLevelSwitch .one true) (orderAt (order .armed))).field.levels.high.get .one = true
    ∧ activeOrder (after (.highLevelSwitch .one true) (orderAt (order .armed))) = some (0, order .armed) := by decide +kernel

/-- 11.3: a power return after a rollover instant, and one without. -/
theorem meets_WarmResetFollowsR183_rollover :
    (∃ n, n % 86400 = site.timebase.rolloverSecond ∧ 1000033600 < n ∧ n ≤ 1000101600)
    ∧ (∃ n, n % 86400 = site.timebase.rolloverSecond ∧ n ≤ 21600)
    ∧ (powerUp { site with timebase := { site.timebase with count := 1000101600 } }).notices = [.day, .restarted]
    ∧ (powerUp site).notices = [.restarted]
    ∧ (h1 (warmReset .resetPin (sessionAt .flowing fill))).session.bind Session.stopCause = some .reset :=
  ⟨⟨1000101600, by decide +kernel⟩, ⟨21600, by decide +kernel⟩, by decide +kernel, by decide +kernel, by decide +kernel⟩

/-- A port with an event to hand over and an entry to take: the event goes first. -/
theorem meets_StepExecutesTheFrontCommand_own_work :
    (readerAt { reader with events := [.present fuelTag], fifo := [entry 9] }).pending = []
    ∧ ownWork (readerAt { reader with events := [.present fuelTag], fifo := [entry 9] }) = some (.tagPresent .h1 fuelTag)
    ∧ ownWork (readerAt { reader with fifo := [entry 9] }) = some (.fifoEntryTaken .h1) := by decide +kernel

/-- 2.2, R37: nothing else of the port happens while an event waits. -/
theorem test_a_port_that_hands_over_is_held :
    (fun s => [Instr.fifoEntryTaken .h1, .silenceTimerExpiry .h1, .graceExpiry .h1].map (fun c => after c s))
      (readerAt { reader with events := [.lost 5], fifo := [entry 9] })
      = List.replicate 3 (readerAt { reader with events := [.lost 5], fifo := [entry 9] }) := by decide +kernel
end Sys2Proof.Tests
end

section
/-! PROOFS. The reply of a command whose checks stand in order, and each check of the machine and tag commands as the
Boolean the statements write for it. -/

namespace Sys2Proof.Machine

/-! ### Checks in order -/

/-- The reply of a command with its checks: the first that fails answers alone and changes nothing. -/
def checkedReply (checks : List (Bool × Status)) (s : State) (r : Reply) : Reply :=
  match firstFailing checks with
  | some e => answer e s
  | none => r

@[simp] theorem checkedReply_nil (s : State) (r : Reply) : checkedReply [] s r = r := rfl

@[simp] theorem checkedReply_true (e : Status) (checks : List (Bool × Status)) (s : State) (r : Reply) :
    checkedReply ((true, e) :: checks) s r = checkedReply checks s r := rfl

/-- A branch of a command's body that refuses is the next check of the list. -/
theorem ite_eq_checkedReply {p : Prop} [Decidable p] {b : Bool} {e : Status} {checks : List (Bool × Status)}
    {s : State} {r rest : Reply} (fails : p ↔ b = false) (holds : b = true → rest = checkedReply checks s r) :
    (if p then answer e s else rest) = checkedReply ((b, e) :: checks) s r := by
  cases b with
  | false => simp [fails, checkedReply]
  | true => simpa [fails, checkedReply] using holds rfl

/-- A ready controller's host command whose reply is one of checks in order. -/
theorem hostRow_checkedReply {c : Instr} {body : State → Reply} {checks : List (Bool × Status)} {s t : State}
    {st : Status} {payload : List Byte} (ready : Ready s) (replies : body s = checkedReply checks s (reply st payload t)) :
    hostRow c body s = checked c checks s st payload t := by
  unfold checkedReply at replies
  cases first : firstFailing checks with
  | none =>
    rw [first] at replies
    exact (hostRow_answers ready replies).trans (checked_holds first).symm
  | some e =>
    rw [first] at replies
    exact (hostRow_answers ready replies).trans (checked_fails first).symm

/-! ### The checks of the machine commands -/

/-- Every record has another machine number (R11, check 4). -/
theorem numberHeldElsewhere_none (n : Nat) (s : State) :
    numberHeldElsewhere none n s = !s.machines.all (fun p => p.2.number != n) := by
  simp [numberHeldElsewhere, tableFind_isSome, List.not_all_eq_any_not, bne]

/-- Every other record has another machine number (R12, R14). -/
theorem numberHeldElsewhere_some (slot n : Nat) (s : State) :
    numberHeldElsewhere (some slot) n s = !s.machines.all (fun p => p.2.number != n || p.1 == slot) := by
  simp [numberHeldElsewhere, tableFind_isSome, List.not_all_eq_any_not, bne]

theorem tankTagHeld_eq (t : Option Tank) (s : State) :
    tankTagHeld t s = !t.toList.all (fun k => (tableGet s.tagIndex k.tag).isNone) := by
  cases t with
  | none => rfl
  | some k => simp [tankTagHeld, tagHeld]

/-- Some tank's tag is in the index (R11, check 5). -/
theorem tankTagsHeld_eq (t u : Option Tank) (s : State) :
    (tankTagHeld t s || tankTagHeld u s) =
      !(t.toList ++ u.toList).all (fun k => (tableGet s.tagIndex k.tag).isNone) := by
  rw [tankTagHeld_eq, tankTagHeld_eq, List.all_append, Bool.not_and]

theorem tagHeldElsewhere_eq (slot : Nat) (t : Option Tank) (s : State) :
    tagHeldElsewhere slot t s = !t.toList.all (fun k => (tableGet s.tagIndex k.tag).all (fun e => e.slot == slot)) := by
  cases t with
  | none => rfl
  | some k => cases h : tableGet s.tagIndex k.tag <;> simp [tagHeldElsewhere, h, bne]

/-- Some tank's tag is in the index under another machine (R12, R14). -/
theorem tagsHeldElsewhere_eq (slot : Nat) (t u : Option Tank) (s : State) :
    (tagHeldElsewhere slot t s || tagHeldElsewhere slot u s) =
      !(t.toList ++ u.toList).all (fun k => (tableGet s.tagIndex k.tag).all (fun e => e.slot == slot)) := by
  rw [tagHeldElsewhere_eq, tagHeldElsewhere_eq, List.all_append, Bool.not_and]

theorem machineSlotOk_eq (slot : Nat) : machineSlotOk slot = decide (slot < 1024) := rfl

theorem tagOk_eq (tag : Nat) : tagOk tag = decide (1 ≤ tag ∧ tag < 2 ^ 48) := by
  have below : tag ≤ Config.maxTag ↔ tag < 2 ^ 48 := by simp only [Config.maxTag]; omega
  rw [tagOk, inRange, ← Bool.decide_and, decide_eq_decide, below]

theorem allowanceCovers_eq (allowance used held overrun : Nat) :
    allowanceCovers allowance used held overrun = decide (used + held ≤ allowance * 1000000 + overrun) := rfl

theorem linkedTankKept_eq (link : Option HoseId) (old new : Option Tank) :
    linkedTankKept link old new = (link.isNone || (new.isSome && new == old)) := rfl

/-- A hose's session delivers to a tank that the new field set leaves out (R14). -/
theorem servedTankMissing_eq (hose : Option HoseId) (tank : Option Tank) :
    (hose.isSome && tank.isNone) = !(hose.isNone || tank.isSome) := by
  cases hose <;> cases tank <;> rfl

/-- The first check of the rewrite form (R14). -/
theorem rewriteFormOk_eq (slot : Nat) (f : MachineFields) (used overrun fills : Nat) :
    (machineSlotOk slot && rewriteFieldsOk f used overrun fills) =
      (decide (slot < 1024) && machineFieldsOk f && decide (used < 2 ^ 48 ∧ fills ≤ 65535)
        && decide (overrun ≤ used)) := by
  have fields : rewriteFieldsOk f used overrun fills =
    (machineFieldsOk f && decide (used < 2 ^ 48) && decide (overrun ≤ used) && decide (fills ≤ 65535)) := rfl
  rw [machineSlotOk_eq, fields, Bool.decide_and]
  ac_rfl

/-! ### Keys and range entries -/

/-- No record holds the number. -/
theorem tableFind_number_none {α : Type} {number : α → Nat} {t : Table α} {n : Nat}
    (h : t.all (fun p => number p.2 != n) = true) : tableFind (fun _ r => number r == n) t = none :=
  tableFind_none.2 fun x hx => by simpa using List.all_eq_true.1 h x hx

theorem permittedSet_eq (g : GradeSet) : permittedSet g =
    [⟨true, false, false⟩, ⟨false, true, false⟩, ⟨true, true, false⟩, ⟨false, false, true⟩].contains g := by
  obtain ⟨a, b, c⟩ := g
  cases a <;> cases b <;> cases c <;> rfl

theorem rangeEntryOk_eq (e : RangeEntry) : rangeEntryOk e =
    (decide (e.base < 2 ^ 48 ∧ e.mask < 2 ^ 48 ∧ e.account ≤ 255 ∧ 1 ≤ e.limit ∧ e.limit ≤ 20000)
      && [⟨true, false, false⟩, ⟨false, true, false⟩, ⟨true, true, false⟩, ⟨false, false, true⟩].contains e.grades) := by
  rw [← permittedSet_eq, Bool.eq_iff_iff]
  simp only [rangeEntryOk, Bool.and_eq_true, decide_eq_true_eq, accountSlotOk_iff, inRange_iff]
  simp only [Config.maxTag]
  constructor
  · rintro ⟨⟨⟨⟨base, mask⟩, account⟩, grades⟩, low, high⟩
    exact ⟨⟨by omega, by omega, by omega, low, high⟩, grades⟩
  · rintro ⟨⟨base, mask, account, low, high⟩, grades⟩
    exact ⟨⟨⟨⟨by omega, by omega⟩, by omega⟩, grades⟩, low, high⟩

theorem rangeAccountFree_eq (e : RangeEntry) (s : State) :
    rangeAccountFree e s = !(!(e.enabled && e.policy == .allow) || (tableGet s.accounts e.account).isSome) := by
  cases h : e.enabled && e.policy == .allow <;> simp [rangeAccountFree, rangeReference, h, accountAt]

end Sys2Proof.Machine
end

section
/-! PROOFS. Machine and account records: looking one up with verification, the tag index and the reference counts, and
the resolution of a tag. -/

namespace Sys2Proof.Machine

/-! ### Looking a record up (R23, R58) -/

theorem verifyMachine_agrees {slot : Nat} {m : MachineRecord} (s : State) (h : m.checkWord = machineCheck m) :
    verifyMachine slot m s = (true, s) := by simp [verifyMachine, h]

/-- An ACTIVE or SUSPENDED record that fails is quarantined and reported. -/
theorem verifyMachine_quarantines {slot : Nat} {m : MachineRecord} (s : State) (h : m.checkWord ≠ machineCheck m)
    (hs : m.state = .active ∨ m.state = .suspended) : verifyMachine slot m s = (false, corruptMachine slot m s) := by
  rcases hs with hs | hs <;> simp [verifyMachine, h, hs, corruptMachine, putMachine]

/-- An ACTIVE or SUSPENDED record is neither RETIRING nor QUARANTINED. -/
theorem not_closed_of_live {m : MachineRecord} (live : m.state = .active ∨ m.state = .suspended) :
    m.state ≠ .retiring ∧ m.state ≠ .quarantined := by
  rcases live with h | h <;> simp [h]

/-- R15, R16, R23: what a look-up of machine record `m` answers, shows and leaves. -/
def MachineLookup (slot : Nat) (m : MachineRecord) (s : State) (st : Status) (shown : MachineRecord) (t : State) :
    Prop :=
  (m.checkWord = machineCheck m ∧ st = .ok ∧ shown = m ∧ t = s)
    ∨ (m.checkWord ≠ machineCheck m ∧ st = .corrupt
      ∧ ((m.state = .quarantined ∧ shown = m ∧ t = s)
        ∨ (m.state = .retiring ∧ shown = m ∧ t = report .table .recordCheck slot 0 s)
        ∨ ((m.state = .active ∨ m.state = .suspended) ∧ shown = { m with state := .quarantined }
          ∧ t = report .table .recordCheck slot 0 { s with machines := tableSet s.machines slot shown })))

theorem verifyMachine_of_lookup {slot : Nat} {m shown : MachineRecord} {s t : State} {st : Status}
    (found : tableGet s.machines slot = some m) (h : MachineLookup slot m s st shown t) :
    lookupStatus (verifyMachine slot m s).1 = st ∧ (verifyMachine slot m s).2 = t
      ∧ machineBytesAt slot t = machineBytes shown := by
  rcases h with ⟨agrees, rfl, rfl, rfl⟩
    | ⟨differs, rfl, ⟨quarantined, rfl, rfl⟩ | ⟨retiring, rfl, rfl⟩ | ⟨live, rfl, rfl⟩⟩
  · simp [verifyMachine_agrees _ agrees, lookupStatus, machineBytesAt, machineAt, found]
  · simp [verifyMachine, differs, quarantined, lookupStatus, machineBytesAt, machineAt, found]
  · simp [verifyMachine, differs, retiring, lookupStatus, machineBytesAt, machineAt, found]
  · rw [verifyMachine_quarantines s differs live]
    simp [lookupStatus, corruptMachine, machineBytesAt, machineAt, tableGet_set]

/-- R50, R58: what a look-up of account record `a` answers, shows and leaves. -/
def AccountLookup (slot : Nat) (a : AccountRecord) (s : State) (st : Status) (shown : AccountRecord) (t : State) :
    Prop :=
  (a.checkWord = accountCheck a ∧ st = .ok ∧ shown = a ∧ t = s)
    ∨ (a.checkWord ≠ accountCheck a ∧ st = .corrupt
      ∧ ((a.state = .quarantined ∧ shown = a ∧ t = s)
        ∨ (a.state ≠ .quarantined ∧ shown = { a with state := .quarantined }
          ∧ t = report .table .recordCheck slot 1 { s with accounts := tableSet s.accounts slot shown })))

theorem verifyAccount_of_lookup {slot : Nat} {a shown : AccountRecord} {s t : State} {st : Status}
    (found : tableGet s.accounts slot = some a) (h : AccountLookup slot a s st shown t) :
    lookupStatus (verifyAccount slot a s).1 = st ∧ (verifyAccount slot a s).2 = t
      ∧ tableGet t.accounts slot = some shown := by
  rcases h with ⟨agrees, rfl, rfl, rfl⟩ | ⟨differs, rfl, ⟨quarantined, rfl, rfl⟩ | ⟨live, rfl, rfl⟩⟩
  · simp [verifyAccount, agrees, lookupStatus, found]
  · simp [verifyAccount, differs, quarantined, lookupStatus, found]
  · cases hs : a.state with
    | quarantined => exact absurd hs live
    | opened => simp [verifyAccount, differs, hs, lookupStatus, putAccount, tableGet_set]
    | stopped => simp [verifyAccount, differs, hs, lookupStatus, putAccount, tableGet_set]

/-! ### Tag index and references (R6, R8, R19) -/

/-- The entries of tanks that all name the slot leave the index. -/
theorem unindexTank_eq {slot : Nat} {t : Option Tank} {s : State}
    (names : ∀ k ∈ t.toList, (tableGet s.tagIndex k.tag).map TagTarget.slot = some slot) :
    unindexTank slot t s =
      { s with tagIndex := t.toList.foldl (fun i k => tableErase i k.tag) s.tagIndex } := by
  cases t with
  | none => rfl
  | some k =>
    obtain ⟨e, he, hslot⟩ := Option.map_eq_some_iff.1 (names k (by simp))
    simp [unindexTank, he, hslot]

/-- R19, of a record whose two tags are its own: the record and its index entries go, its account loses a reference. -/
theorem freeMachine_eq {slot : Nat} {m : MachineRecord} {s : State}
    (names : ∀ k ∈ m.fuel.toList ++ m.fluid.toList, (tableGet s.tagIndex k.tag).map TagTarget.slot = some slot)
    (differ : ∀ k ∈ m.fuel.toList, ∀ u ∈ m.fluid.toList, k.tag ≠ u.tag) :
    freeMachine slot m s = changeAccount m.account (fun a => { a with references := minus a.references 1 })
      { s with
        machines := tableErase s.machines slot
        tagIndex := (m.fuel.toList ++ m.fluid.toList).foldl (fun t k => tableErase t k.tag) s.tagIndex } := by
  have fuel : ∀ k ∈ m.fuel.toList, (tableGet s.tagIndex k.tag).map TagTarget.slot = some slot :=
    fun k hk => names k (List.mem_append_left _ hk)
  have fluid : ∀ u ∈ m.fluid.toList,
      (tableGet (m.fuel.toList.foldl (fun i k => tableErase i k.tag) s.tagIndex) u.tag).map TagTarget.slot = some slot := by
    intro u hu
    have kept := names u (List.mem_append_right _ hu)
    cases hf : m.fuel with
    | none => simpa using kept
    | some k =>
      have ne : u.tag ≠ k.tag := (differ k (by simp [hf]) u hu).symm
      simpa [tableGet_erase, ne] using kept
  unfold freeMachine dropReference
  rw [unindexTank_eq (s := { s with machines := tableErase s.machines slot }) fuel, unindexTank_eq fluid,
    List.foldl_append]

theorem indexTank_eq (slot : Nat) (kind : TankKind) (t : Option Tank) (s : State) :
    indexTank slot kind t s =
      { s with tagIndex := t.toList.foldl (fun i k => tableSet i k.tag { slot := slot, tank := kind }) s.tagIndex } := by
  cases t <;> rfl

/-- R6: after an entry of the slot is removed. -/
theorem unindexTank_tagIndex (slot : Nat) (t : Option Tank) (s : State) (tag : Nat) :
    tableGet (unindexTank slot t s).tagIndex tag =
      if t.map Tank.tag = some tag ∧ (tableGet s.tagIndex tag).map TagTarget.slot = some slot then none
      else tableGet s.tagIndex tag := by
  cases t with
  | none => simp [unindexTank]
  | some k =>
    cases hk : tableGet s.tagIndex k.tag with
    | none =>
      by_cases ht : k.tag = tag
      · subst ht
        simp [unindexTank, hk]
      · simp [unindexTank, hk, ht]
    | some e =>
      by_cases ht : k.tag = tag
      · subst ht
        by_cases hs : e.slot = slot <;> simp [unindexTank, hk, hs, tableGet_erase]
      · have ht' : tag ≠ k.tag := Ne.symm ht
        by_cases hs : e.slot = slot <;> simp [unindexTank, hk, hs, tableGet_erase, ht, ht']

/-- R6: after an entry of the slot is added. -/
theorem indexTank_tagIndex (slot : Nat) (kind : TankKind) (t : Option Tank) (s : State) (tag : Nat) :
    tableGet (indexTank slot kind t s).tagIndex tag =
      if t.map Tank.tag = some tag then some { slot := slot, tank := kind } else tableGet s.tagIndex tag := by
  cases t with
  | none => simp [indexTank]
  | some k => simp [indexTank, tableGet_set, eq_comm]

theorem changeAccount_some {slot : Nat} {a : AccountRecord} {s : State} (f : AccountRecord → AccountRecord)
    (h : tableGet s.accounts slot = some a) :
    changeAccount slot f s = { s with accounts := tableSet s.accounts slot (accountStamp (f a)) } := by
  simp [changeAccount, h, writeAccount, putAccount]

theorem minus_of_le {a b : Nat} (h : b ≤ a) : minus a b = a - b := if_pos h

/-! ### Tag resolution (R7, R9) -/

theorem rangeMatches_iff (e : RangeEntry) (tag : Nat) :
    rangeMatches e tag = true ↔ e.enabled = true ∧ tag &&& e.mask = e.base &&& e.mask := by
  simp [rangeMatches]

/-- The entry found for a policy is the lowest-numbered one of that policy that matches. -/
theorem rangeHit_some {tag : Nat} {p : Policy} {s : State} {e : RangeEntry} {i : Nat}
    (h : rangeHit tag p s = some (e, i)) :
    s.ranges[i]? = some e ∧ rangeMatches e tag = true ∧ e.policy = p
      ∧ ∀ (j : Nat) d, s.ranges[j]? = some d → rangeMatches d tag = true → d.policy = p → i ≤ j := by
  obtain ⟨passes, k, hk, at_k, first⟩ := List.find?_eq_some_iff_getElem.1 h
  simp only [List.getElem_zipIdx, Nat.zero_add, Prod.mk.injEq] at at_k
  obtain ⟨rfl, rfl⟩ := at_k
  simp only [Bool.and_eq_true, beq_iff_eq] at passes
  have size : k < 8 := by simpa using hk
  refine ⟨by simp [size], passes.1, passes.2, fun j d hj matches_d policy_d => Nat.le_of_not_lt fun below => ?_⟩
  have hj8 : j < 8 := by omega
  obtain rfl : s.ranges[j] = d := by simpa [hj8] using hj
  simpa [matches_d, policy_d] using first j below

/-- Where none is found for a policy, no matching entry has it. -/
theorem rangeHit_none {tag : Nat} {p : Policy} {s : State} (h : rangeHit tag p s = none) {j : Nat} {d : RangeEntry}
    (hj : s.ranges[j]? = some d) (matches_d : rangeMatches d tag = true) : d.policy ≠ p := by
  intro policy_d
  have mem : (d, j) ∈ s.ranges.toList.zipIdx := by
    rw [List.mem_zipIdx_iff_getElem?]
    simpa using hj
  simpa [matches_d, policy_d] using List.find?_eq_none.1 h (d, j) mem

/-- R9: entry `i` matches, no matching entry is more restrictive, and none equally restrictive stands before it. -/
def MostRestrictive (tag : Nat) (s : State) (i : Nat) (e : RangeEntry) : Prop :=
  s.ranges[i]? = some e ∧ rangeMatches e tag = true
    ∧ ∀ (j : Nat) d, s.ranges[j]? = some d → rangeMatches d tag = true →
      policyCode e.policy ≤ policyCode d.policy ∧ (policyCode e.policy = policyCode d.policy → i ≤ j)

theorem policyCode_injective : Function.Injective policyCode := by
  intro p q h
  cases p <;> cases q <;> simp_all [policyCode]

theorem MostRestrictive.unique {tag : Nat} {s : State} {i j : Nat} {e d : RangeEntry} (hi : MostRestrictive tag s i e)
    (hj : MostRestrictive tag s j d) : i = j ∧ e = d := by
  obtain ⟨at_i, match_i, least_i⟩ := hi
  obtain ⟨at_j, match_j, least_j⟩ := hj
  obtain ⟨le_d, first_i⟩ := least_i j d at_j match_j
  obtain ⟨le_e, first_j⟩ := least_j i e at_i match_i
  have same := le_antisymm le_d le_e
  obtain rfl := le_antisymm (first_i same) (first_j same.symm)
  exact ⟨rfl, Option.some.inj (at_i.symm.trans at_j)⟩

/-- An entry found for a policy, no entry of a more restrictive one matching, is the one R9 takes. -/
theorem mostRestrictive_of_rangeHit {tag : Nat} {p : Policy} {s : State} {e : RangeEntry} {i : Nat}
    (hit : rangeHit tag p s = some (e, i))
    (below : ∀ q, policyCode q < policyCode p → rangeHit tag q s = none) : MostRestrictive tag s i e := by
  obtain ⟨at_i, matches_e, rfl, first⟩ := rangeHit_some hit
  refine ⟨at_i, matches_e, fun j d hj matches_d => ⟨Nat.le_of_not_lt fun less => ?_, fun same => ?_⟩⟩
  · exact rangeHit_none (below _ less) hj matches_d rfl
  · exact first j d hj matches_d (policyCode_injective same.symm)

/-- R9 whole: what resolving a tag gives, and why. -/
theorem resolve_cases (tag : Nat) (s : State) :
    (∃ target, tableGet s.tagIndex tag = some target ∧ resolve tag s = .machine target)
    ∨ (tableGet s.tagIndex tag = none ∧ ∃ i e, MostRestrictive tag s i e ∧ resolve tag s = .range i e)
    ∨ (tableGet s.tagIndex tag = none ∧ (∀ (j : Nat) d, s.ranges[j]? = some d → rangeMatches d tag = false)
      ∧ resolve tag s = .default s.defaultPolicy) := by
  cases index : tableGet s.tagIndex tag with
  | some target => exact .inl ⟨target, rfl, by simp [resolve, index]⟩
  | none =>
    refine .inr ?_
    cases refuse : rangeHit tag .refuse s with
    | some x =>
      refine .inl ⟨rfl, x.2, x.1, mostRestrictive_of_rangeHit refuse fun q less => ?_, by simp [resolve, index, refuse]⟩
      cases q <;> simp [policyCode] at less
    | none =>
      cases refer : rangeHit tag .refer s with
      | some x =>
        refine .inl ⟨rfl, x.2, x.1, mostRestrictive_of_rangeHit refer fun q less => ?_,
          by simp [resolve, index, refuse, refer]⟩
        cases q <;> simp_all [policyCode]
      | none =>
        cases allow : rangeHit tag .allow s with
        | some x =>
          refine .inl ⟨rfl, x.2, x.1, mostRestrictive_of_rangeHit allow fun q less => ?_,
            by simp [resolve, index, refuse, refer, allow]⟩
          cases q <;> simp_all [policyCode]
        | none =>
          refine .inr ⟨rfl, fun j d hj => Bool.eq_false_iff.2 fun matches_d => ?_,
            by simp [resolve, index, refuse, refer, allow]⟩
          cases policy : d.policy with
          | refuse => exact rangeHit_none refuse hj matches_d policy
          | refer => exact rangeHit_none refer hj matches_d policy
          | allow => exact rangeHit_none allow hj matches_d policy

theorem resolve_machine_iff (tag : Nat) (s : State) (target : TagTarget) :
    resolve tag s = .machine target ↔ tableGet s.tagIndex tag = some target := by
  rcases resolve_cases tag s with ⟨t, index, is⟩ | ⟨index, i, e, -, is⟩ | ⟨index, -, is⟩ <;> simp [index, is]

theorem resolve_range_iff (tag : Nat) (s : State) (i : Nat) (e : RangeEntry) :
    resolve tag s = .range i e ↔ tableGet s.tagIndex tag = none ∧ MostRestrictive tag s i e := by
  rcases resolve_cases tag s with ⟨t, index, is⟩ | ⟨index, j, d, most, is⟩ | ⟨index, nothing, is⟩
  · simp [index, is]
  · rw [is, Resolution.range.injEq]
    exact ⟨fun ⟨hi, he⟩ => ⟨index, hi ▸ he ▸ most⟩, fun ⟨_, h⟩ => most.unique h⟩
  · rw [is]
    refine iff_of_false (by simp) fun ⟨_, at_i, matches_e, _⟩ => ?_
    simp [nothing i e at_i] at matches_e

theorem resolve_default_iff (tag : Nat) (s : State) (p : Policy) :
    resolve tag s = .default p ↔ tableGet s.tagIndex tag = none ∧ p = s.defaultPolicy
      ∧ ∀ (j : Nat) d, s.ranges[j]? = some d → rangeMatches d tag = false := by
  rcases resolve_cases tag s with ⟨t, index, is⟩ | ⟨index, j, d, ⟨at_j, matches_d, -⟩, is⟩ | ⟨index, nothing, is⟩
  · simp [index, is]
  · rw [is]
    refine iff_of_false (by simp) fun ⟨_, _, nothing⟩ => ?_
    simp [nothing j d at_j] at matches_d
  · rw [is, Resolution.default.injEq]
    exact ⟨fun h => ⟨index, h.symm, nothing⟩, fun ⟨_, is, _⟩ => is.symm⟩

/-! ### What index and references hold after a change (R6, R8) -/

/-- R6: after a record's tanks change, its new tags name the slot, its old ones are free, other slots keep theirs. -/
theorem reindex_tagIndex (slot : Nat) (oldFuel oldFluid newFuel newFluid : Option Tank) (s : State) (tag : Nat)
    (differ : ∀ k ∈ newFuel.toList, ∀ u ∈ newFluid.toList, k.tag ≠ u.tag) :
    tableGet (reindex slot oldFuel oldFluid newFuel newFluid s).tagIndex tag =
      if newFuel.map Tank.tag = some tag then some { slot := slot, tank := .fuel }
      else if newFluid.map Tank.tag = some tag then some { slot := slot, tank := .fluid }
      else if (oldFuel.map Tank.tag = some tag ∨ oldFluid.map Tank.tag = some tag)
          ∧ (tableGet s.tagIndex tag).map TagTarget.slot = some slot then none
      else tableGet s.tagIndex tag := by
  have notBoth : newFluid.map Tank.tag = some tag → newFuel.map Tank.tag ≠ some tag := by
    intro fluid fuel
    obtain ⟨u, hu, hut⟩ := Option.map_eq_some_iff.1 fluid
    obtain ⟨k, hk, hkt⟩ := Option.map_eq_some_iff.1 fuel
    exact differ k (by simp [hk]) u (by simp [hu]) (hkt.trans hut.symm)
  simp only [reindex, indexTank_tagIndex, unindexTank_tagIndex]
  by_cases fluid : newFluid.map Tank.tag = some tag
  · simp [fluid, notBoth fluid]
  · by_cases named : (tableGet s.tagIndex tag).map TagTarget.slot = some slot
    · by_cases fuel : oldFuel.map Tank.tag = some tag <;> simp [fluid, named, fuel]
    · simp [fluid, named]

theorem moveReference_self (a : Option Nat) (s : State) : moveReference a a s = s := if_pos rfl

/-- R8: one reference less and one more, nothing else of either account changing but the check word. -/
theorem moveReference_eq {i j : Nat} {a b : AccountRecord} {s : State} (ne : i ≠ j) (held : 0 < a.references)
    (ha : tableGet s.accounts i = some a) (hb : tableGet s.accounts j = some b) :
    moveReference (some i) (some j) s =
      { s with
        accounts := tableSet (tableSet s.accounts i (accountStamp { a with references := a.references - 1 })) j
          (accountStamp { b with references := b.references + 1 }) } := by
  have ne' : some i ≠ some j := fun h => ne (Option.some.inj h)
  have dropped : dropReference i s =
      { s with accounts := tableSet s.accounts i (accountStamp { a with references := a.references - 1 }) } := by
    rw [dropReference, changeAccount_some _ ha, minus_of_le held]
  have kept : tableGet (dropReference i s).accounts j = some b := by simp [dropped, tableGet_set, ne.symm, hb]
  simp only [moveReference, if_neg ne', addReference, changeAccount_some _ kept]
  rw [dropped]

end Sys2Proof.Machine
end

section
/-! PROOFS. The commands of the machine table, their statements settled check by check; and the state after reset. -/

namespace Sys2Proof.Machine

/-! ### MACHINE INSTALL and MACHINE AMEND (R11 to R14) -/

/-- Settles O1: the branches of the command are the checks of R11, one by one. -/
theorem machineInstallFollowsR11 : Obligations.MachineInstallFollowsR11 := by
  intro f s slot ready slotIs
  refine (exec_machineInstall f s).trans (hostRow_checkedReply ready ?_)
  unfold doMachineInstall
  refine ite_eq_checkedReply (by simp) fun _ => ?_
  simp only [Config.machineSlots]
  cases free : lowestFree s.machines 1024 with
  | none => simp [checkedReply]
  | some lowest =>
    obtain rfl : lowest = slot := by simpa [free] using slotIs
    rw [Option.isSome_some, checkedReply_true]
    refine ite_eq_checkedReply (by simp [accountAt]) fun _ => ?_
    refine ite_eq_checkedReply (by simp [numberHeldElsewhere_none]) fun _ => ?_
    refine ite_eq_checkedReply (by rw [tankTagsHeld_eq, Bool.not_eq_true']) fun _ => ?_
    rw [checkedReply_nil, indexTank_eq, indexTank_eq]
    rfl

theorem placeAmended_eq (slot : Nat) (old new : MachineRecord) (s : State) :
    placeAmended slot old new s = reindex slot old.fuel old.fluid new.fuel new.fluid
      (moveReference (some old.account) (some new.account)
        { s with machines := tableSet s.machines slot (machineStamp new) }) := rfl

/-- Settles O2: of a record that verifies, the branches are the checks of R12 one by one; then the other states, and the
ill-formed commands. -/
theorem machineAmendChangeFollowsR12 : Obligations.MachineAmendChangeFollowsR12 := by
  refine ⟨fun slot f s m ready found agrees => ?_, fun slot f s ready slotLt fieldsOk => ?_,
    fun slot f s ready illFormed => ?_⟩
  · refine (exec_machineAmendChange slot f s).trans (hostRow_checkedReply ready ?_)
    simp only [doMachineAmendChange, machineAt, found, verifyMachine_agrees s agrees]
    refine ite_eq_checkedReply (by rw [machineSlotOk_eq, Bool.not_eq_true']) fun _ => ?_
    refine ite_eq_checkedReply (by simp) fun _ => ?_
    refine ite_eq_checkedReply (by simp) fun _ => ?_
    refine ite_eq_checkedReply (by simp [accountAt]) fun _ => ?_
    refine ite_eq_checkedReply (by simp [numberHeldElsewhere_some]) fun _ => ?_
    refine ite_eq_checkedReply (by rw [tagsHeldElsewhere_eq, Bool.not_eq_true']) fun _ => ?_
    refine ite_eq_checkedReply (by rw [linkedTankKept_eq, linkedTankKept_eq, Bool.not_eq_true']) fun _ => ?_
    refine ite_eq_checkedReply (by rw [allowanceCovers_eq, Bool.not_eq_true']) fun _ => ?_
    rfl
  · have formed : machineSlotOk slot = true := machineSlotOk_iff.2 slotLt
    refine ⟨fun free => ?_, fun m found => ⟨fun retiring => ?_, fun quarantined => ?_, fun live differs => ?_⟩⟩ <;>
      refine (exec_machineAmendChange slot f s).trans (hostRow_answers ready ?_)
    · simp [doMachineAmendChange, formed, fieldsOk, machineAt, free, answer, reply]
    · simp [doMachineAmendChange, formed, fieldsOk, machineAt, found, retiring, answer, reply]
    · simp [doMachineAmendChange, formed, fieldsOk, machineAt, found, quarantined, answer, reply]
    · obtain ⟨notRetiring, notQuarantined⟩ := not_closed_of_live live
      simp [doMachineAmendChange, formed, fieldsOk, machineAt, found, notRetiring, notQuarantined,
        verifyMachine_quarantines s differs live, answer, reply]
  · refine (exec_machineAmendChange slot f s).trans (hostRow_answers ready ?_)
    have refused : (machineSlotOk slot && machineFieldsOk f) = false := by
      rcases illFormed with h | h
      · simp [machineSlotOk_eq, Nat.not_lt.2 h]
      · simp [h]
    simp [doMachineAmendChange, refused, answer, reply]

/-- R14: a rewritten record that is not RETIRING is ACTIVE or SUSPENDED, QUARANTINED having become ACTIVE. -/
theorem rewritten_state {st : MachineState} (h : st ≠ .retiring) :
    (if st = .suspended then MachineState.suspended else .active) = if st = .quarantined then .active else st := by
  cases st <;> simp_all

/-- Settles O3: the branches are the checks of R14 one by one, and the record rebuilt is the statement's. -/
theorem machineAmendRewriteFollowsR14 : Obligations.MachineAmendRewriteFollowsR14 := by
  refine ⟨fun slot f used overrun fills s m ready found => ?_, fun slot f used overrun fills s ready free => ?_⟩ <;>
    refine (exec_machineAmendRewrite slot f used overrun fills s).trans (hostRow_checkedReply ready ?_)
  · simp only [doMachineAmendRewrite, machineAt, found]
    refine ite_eq_checkedReply (by rw [rewriteFormOk_eq, Bool.not_eq_true']) fun _ => ?_
    refine ite_eq_checkedReply (by simp) fun notRetiring => ?_
    refine ite_eq_checkedReply (by simp [accountAt]) fun _ => ?_
    refine ite_eq_checkedReply (by simp [numberHeldElsewhere_some]) fun _ => ?_
    refine ite_eq_checkedReply (by rw [tagsHeldElsewhere_eq, Bool.not_eq_true']) fun _ => ?_
    refine ite_eq_checkedReply (by rw [servedTankMissing_eq, servedTankMissing_eq, ← Bool.not_and, Bool.not_eq_true'])
      fun _ => ?_
    refine ite_eq_checkedReply (by rw [allowanceCovers_eq, Bool.not_eq_true']) fun _ => ?_
    rw [checkedReply_nil, placeAmended_eq, rewrittenMachine, rewritten_state (by simpa using notRetiring)]
    rfl
  · simp only [doMachineAmendRewrite, machineAt, free]
    exact ite_eq_checkedReply (by rw [rewriteFormOk_eq, Bool.not_eq_true']) fun _ => rfl

/-! ### MACHINE SUSPEND, REINSTATE and RETIRE (R17 to R19) -/

/-- MACHINE SUSPEND and MACHINE REINSTATE as one command: a record in state `origin` takes state `target`. -/
def changeState (origin target : MachineState) (slot : Nat) (s : State) : Reply :=
  if !machineSlotOk slot then answer .malformed s
  else
    match machineAt slot s with
    | none => answer .noRecord s
    | some m =>
      if m.state = .retiring ∨ m.state = .quarantined then answer .state s
      else
        match verifyMachine slot m s with
        | (false, s) => answer .corrupt s
        | (true, s) =>
          if m.state = origin then answer .ok (writeMachine slot { m with state := target } s) else answer .ok s

theorem doMachineSuspend_eq : doMachineSuspend = changeState .active .suspended := rfl
theorem doMachineReinstate_eq : doMachineReinstate = changeState .suspended .active := rfl

section
variable {origin target : MachineState} {slot : Nat} {s : State} {m : MachineRecord}

theorem changeState_free (slotLt : slot < 1024) (free : tableGet s.machines slot = none) :
    changeState origin target slot s = (s, some ⟨.noRecord, []⟩) := by
  simp [changeState, machineSlotOk_iff.2 slotLt, machineAt, free, answer, reply]

theorem changeState_closed (slotLt : slot < 1024) (found : tableGet s.machines slot = some m)
    (closed : m.state = .retiring ∨ m.state = .quarantined) :
    changeState origin target slot s = (s, some ⟨.state, []⟩) := by
  simp [changeState, machineSlotOk_iff.2 slotLt, machineAt, found, closed, answer, reply]

theorem changeState_corrupt (slotLt : slot < 1024) (found : tableGet s.machines slot = some m)
    (live : m.state = .active ∨ m.state = .suspended) (differs : m.checkWord ≠ machineCheck m) :
    changeState origin target slot s = (corruptMachine slot m s, some ⟨.corrupt, []⟩) := by
  have notClosed : ¬ (m.state = .retiring ∨ m.state = .quarantined) := not_or.2 (not_closed_of_live live)
  simp [changeState, machineSlotOk_iff.2 slotLt, machineAt, found, notClosed, verifyMachine_quarantines s differs live,
    answer, reply]

theorem changeState_ok (slotLt : slot < 1024) (found : tableGet s.machines slot = some m)
    (live : m.state = .active ∨ m.state = .suspended) (agrees : m.checkWord = machineCheck m)
    (two : m.state = origin ↔ m.state ≠ target) :
    changeState origin target slot s =
      ({ s with
          machines := if m.state = target then s.machines
            else tableSet s.machines slot (machineStamp { m with state := target }) }, some ⟨.ok, []⟩) := by
  have notClosed : ¬ (m.state = .retiring ∨ m.state = .quarantined) := not_or.2 (not_closed_of_live live)
  have body : changeState origin target slot s =
      if m.state = origin then answer .ok (writeMachine slot { m with state := target } s) else answer .ok s := by
    simp [changeState, machineSlotOk_iff.2 slotLt, machineAt, found, notClosed, verifyMachine_agrees s agrees]
  by_cases h : m.state = target
  · rw [body, if_neg (two.not.2 (not_not.2 h)), if_pos h]
    rfl
  · rw [body, if_pos (two.2 h), if_neg h]
    rfl

end

/-- Settles O4: the two state changes are `changeState`; RETIRE goes by the record's state and links. -/
theorem machineStatesFollowR17R19 : Obligations.MachineStatesFollowR17R19 := by
  refine ⟨fun slot s ready slotLt => ?_, fun slot s ready slotLt => ?_⟩
  · have suspends {st payload t} (h : changeState .active .suspended slot s = (t, some ⟨st, payload⟩)) :
        exec (.machineSuspend slot) s = completes (.machineSuspend slot) st payload t :=
      (exec_machineSuspend slot s).trans (hostRow_answers ready (doMachineSuspend_eq ▸ h))
    have reinstates {st payload t} (h : changeState .suspended .active slot s = (t, some ⟨st, payload⟩)) :
        exec (.machineReinstate slot) s = completes (.machineReinstate slot) st payload t :=
      (exec_machineReinstate slot s).trans (hostRow_answers ready (doMachineReinstate_eq ▸ h))
    refine ⟨fun free => ⟨suspends (changeState_free slotLt free), reinstates (changeState_free slotLt free)⟩,
      fun m found => ⟨fun closed => ?_, fun live => ⟨fun differs => ?_, fun agrees => ?_⟩⟩⟩
    · exact ⟨suspends (changeState_closed slotLt found closed), reinstates (changeState_closed slotLt found closed)⟩
    · exact ⟨corruptMachine slot m s, rfl, suspends (changeState_corrupt slotLt found live differs),
        reinstates (changeState_corrupt slotLt found live differs)⟩
    · refine ⟨suspends (changeState_ok slotLt found live agrees ?_),
        reinstates (changeState_ok slotLt found live agrees ?_)⟩ <;> rcases live with h | h <;> simp [h]
  · have formed : machineSlotOk slot = true := machineSlotOk_iff.2 slotLt
    refine ⟨fun free => ?_, fun m found => ⟨fun retiring => ?_, fun notRetiring linked => ?_,
        fun notRetiring noFuel noFluid names differ => ?_⟩⟩ <;>
      refine (exec_machineRetire slot s).trans (hostRow_answers ready ?_)
    · simp [doMachineRetire, formed, machineAt, free, answer, reply]
    · simp [doMachineRetire, formed, machineAt, found, retiring, okWith, reply, machineStateCode]
    · have held : ¬ (m.fuelLink = none ∧ m.fluidLink = none) := by
        rintro ⟨h1, h2⟩
        simp [h1, h2] at linked
      simp only [doMachineRetire, formed, machineAt, found, if_neg notRetiring, if_neg held]
      rfl
    · simp [doMachineRetire, formed, machineAt, found, notRetiring, noFuel, noFluid, freeMachine_eq names differ,
        okWith, reply]

/-! ### Reads and finds (R15, R16, R50, R55) -/

/-- Settles O5: every read is the look-up of the record its key names. -/
theorem recordReadsVerifyR15R50 : Obligations.RecordReadsVerifyR15R50 := by
  refine ⟨fun slot s m ready slotLt found st shown t lookup => ?_,
    fun slot s a ready slotLt found st shown t lookup => ?_, fun s ready => ?_⟩
  · obtain ⟨status, left, shows⟩ := verifyMachine_of_lookup found lookup
    have formed : machineSlotOk slot = true := machineSlotOk_iff.2 slotLt
    refine ⟨?_, fun tag kind low high names => ?_, fun n low high holds => ?_⟩
    · refine (exec_machineRead slot s).trans (hostRow_answers ready ?_)
      simp [doMachineRead, formed, machineAt, found, status, left, shows, reply]
    · have tagFits : tagOk tag = true := tagOk_iff.2 ⟨low, by omega⟩
      refine (exec_machineFind (.tag tag) s).trans (hostRow_answers ready ?_)
      simp [doMachineFind, tagFits, names, machineAt, found, status, left, shows, reply]
    · refine (exec_machineFind (.number n) s).trans (hostRow_answers ready ?_)
      simp [doMachineFind, inRange_iff.2 ⟨low, high⟩, holds, status, left, shows, reply]
  · obtain ⟨status, left, shows⟩ := verifyAccount_of_lookup found lookup
    have formed : accountSlotOk slot = true := accountSlotOk_iff.2 slotLt
    refine ⟨?_, fun n low high holds => ?_, ?_⟩
    · refine (exec_accountRead (.slot slot) s).trans (hostRow_answers ready ?_)
      simp [doAccountRead, accountKeySlot, formed, accountAt, found, status, left, accountBytesAt, shows, reply]
    · refine (exec_accountRead (.number n) s).trans (hostRow_answers ready ?_)
      simp [doAccountRead, accountKeySlot, inRange_iff.2 ⟨low, high⟩, holds, accountAt, found, status, left,
        accountBytesAt, shows, reply]
    · refine (exec_statementRead slot s).trans (hostRow_answers ready ?_)
      by_cases quarantined : a.state = .quarantined
      · simp [doStatementRead, formed, accountAt, found, left, reply, lookupStatus, quarantined]
      · have trusted : (a.state != .quarantined) = true := bne_iff_ne.2 quarantined
        simp [doStatementRead, formed, accountAt, found, status, left, reply, quarantined, trusted]
  · refine ⟨fun slot slotLt free => ?_, fun tag low high absent => ?_, fun n low high absent => ?_,
      fun slot slotLt free => ⟨?_, ?_⟩, fun n low high absent => ?_⟩
    · refine (exec_machineRead slot s).trans (hostRow_answers ready ?_)
      simp [doMachineRead, machineSlotOk_iff.2 slotLt, machineAt, free, answer, reply]
    · refine (exec_machineFind (.tag tag) s).trans (hostRow_answers ready ?_)
      have tagFits : tagOk tag = true := tagOk_iff.2 ⟨low, by omega⟩
      simp [doMachineFind, tagFits, absent, answer, reply]
    · refine (exec_machineFind (.number n) s).trans (hostRow_answers ready ?_)
      simp [doMachineFind, inRange_iff.2 ⟨low, high⟩, tableFind_number_none absent, answer, reply]
    · refine (exec_accountRead (.slot slot) s).trans (hostRow_answers ready ?_)
      simp [doAccountRead, accountKeySlot, accountSlotOk_iff.2 slotLt, accountAt, free, answer, reply]
    · refine (exec_statementRead slot s).trans (hostRow_answers ready ?_)
      simp [doStatementRead, accountSlotOk_iff.2 slotLt, accountAt, free, answer, reply]
    · refine (exec_accountRead (.number n) s).trans (hostRow_answers ready ?_)
      simp [doAccountRead, accountKeySlot, inRange_iff.2 ⟨low, high⟩, tableFind_number_none absent, answer, reply]

/-! ### Tag resolution, index and references (R6 to R9) -/

/-- Settles O6, from the equivalences on `resolve`, the index after `reindex` and the counts after `moveReference`. -/
theorem indexAndResolutionFollowR6R9 : Obligations.IndexAndResolutionFollowR6R9 :=
  ⟨fun tag s => ⟨resolve_machine_iff tag s, resolve_range_iff tag s, resolve_default_iff tag s⟩, rangeMatches_iff,
    reindex_tagIndex,
    fun i _ _ _ s ne held ha hb => ⟨moveReference_self (some i) s, moveReference_eq ne held ha hb⟩⟩

/-! ### TAG QUERY, RANGE WRITE, RANGE READ and DEFAULT POLICY SET (R10, R20, R21) -/

/-- Settles O7: each command by its checks, the reads by the entry they find. -/
theorem tagAndRangeCommandsComplete : Obligations.TagAndRangeCommandsComplete := by
  refine fun s ready => ⟨fun tag => ?_, fun entry old e found => ?_, fun entry e found => ?_, fun p => ?_⟩
  · refine (exec_tagQuery tag s).trans (hostRow_checkedReply ready ?_)
    exact ite_eq_checkedReply (by rw [tagOk_eq, Bool.not_eq_true']) fun _ => rfl
  · refine (exec_rangeWrite entry e s).trans (hostRow_checkedReply ready ?_)
    simp only [doRangeWrite, found]
    refine ite_eq_checkedReply (by rw [rangeEntryOk_eq, Bool.not_eq_true']) fun _ => ?_
    exact ite_eq_checkedReply (by rw [rangeAccountFree_eq, Bool.not_eq_true']) fun _ => rfl
  · refine (exec_rangeRead entry s).trans (hostRow_answers ready ?_)
    simp [doRangeRead, found, okWith, reply]
  · refine (exec_defaultPolicySet p s).trans (hostRow_checkedReply ready ?_)
    exact ite_eq_checkedReply (by simp) fun _ => rfl

/-! ### The state after reset -/

theorem reset_orders : State.reset.loads.orders = [] := rfl

/-- R110: after reset nothing withholds DRIVE PERMIT, and it is asserted. -/
theorem reset_permitLaw : PermitLaw State.reset := by
  refine fun _ => iff_of_true rfl ⟨fun id => ?_, fun id => ?_, fun id => ?_, rfl, by simp [reset_orders]⟩ <;>
    cases id <;> rfl

theorem reset_bookLaw : BookLaw State.reset := fun c => by cases c <;> rfl

/-- R178: after reset there is no order, no compartment is LOADING, the inlet is closed and its timers stand. -/
theorem reset_loadLaw : LoadLaw State.reset := by
  have notLoading (c : CompId) : (State.reset.compartments.get c).state ≠ .loading := by cases c <;> decide
  have closed : State.reset.loads.valveOpen = false := rfl
  have noArm : State.reset.loads.armTimer = none := rfl
  have noSettle : State.reset.loads.settleTimer = none := rfl
  simp [LoadLaw, reset_orders, notLoading, closed, noArm, noSettle]

/-- Settles O60, law by law. -/
theorem resetMeetsTheLaws : Obligations.ResetMeetsTheLaws :=
  ⟨reset_permitLaw, ⟨rfl, rfl, rfl⟩, reset_bookLaw, reset_loadLaw, rfl⟩

end Sys2Proof.Machine
end

section
/-! PROOFS. The close of a session: what each part of it writes and leaves, and the statement on closes (R128 to
R130). -/

namespace Sys2Proof.Machine

/-! ### What the parts of a close leave as it was -/

/-- Nothing but machine records, tag index and accounts differs: all that a change of the tables' records writes. -/
def RecordsOnly (s t : State) : Prop :=
  t = { s with machines := t.machines, tagIndex := t.tagIndex, accounts := t.accounts }

theorem RecordsOnly.trans {s t u : State} (h : RecordsOnly s t) (k : RecordsOnly t u) : RecordsOnly s u := by
  unfold RecordsOnly at *
  rw [h] at k
  exact k

theorem RecordsOnly.hoses {s t : State} (h : RecordsOnly s t) : t.hoses = s.hoses := by
  unfold RecordsOnly at h
  rw [h]

theorem RecordsOnly.compartments {s t : State} (h : RecordsOnly s t) : t.compartments = s.compartments := by
  unfold RecordsOnly at h
  rw [h]

theorem recordsOnly_changeAccount (slot : Nat) (f : AccountRecord → AccountRecord) (s : State) :
    RecordsOnly s (changeAccount slot f s) := by
  unfold changeAccount
  split <;> rfl

@[simp] theorem changeAccount_machines (slot : Nat) (f : AccountRecord → AccountRecord) (s : State) :
    (changeAccount slot f s).machines = s.machines := by
  unfold changeAccount
  split <;> rfl

/-- Removing an index entry changes the index alone. -/
theorem unindexTank_frame (slot : Nat) (t : Option Tank) (s : State) :
    unindexTank slot t s = { s with tagIndex := (unindexTank slot t s).tagIndex } := by
  unfold unindexTank
  split
  · rfl
  · split
    · rfl
    · split <;> rfl

theorem recordsOnly_unindexTank (slot : Nat) (t : Option Tank) (s : State) : RecordsOnly s (unindexTank slot t s) := by
  rw [unindexTank_frame]
  rfl

theorem recordsOnly_freeMachine (slot : Nat) (m : MachineRecord) (s : State) : RecordsOnly s (freeMachine slot m s) :=
  have erased : RecordsOnly s { s with machines := tableErase s.machines slot } := rfl
  ((erased.trans (recordsOnly_unindexTank _ _ _)).trans (recordsOnly_unindexTank _ _ _)).trans
    (recordsOnly_changeAccount _ _ _)

theorem freeMachine_machines (slot : Nat) (m : MachineRecord) (s : State) :
    (freeMachine slot m s).machines = tableErase s.machines slot := by
  rw [freeMachine, dropReference, changeAccount_machines, unindexTank_frame slot m.fluid, unindexTank_frame slot m.fuel]

theorem recordsOnly_closeMachine (id : HoseId) (x : Session) (cause : StopCause) (s : State) :
    RecordsOnly s (closeMachine id x cause s) := by
  unfold closeMachine
  split
  · rfl
  · split
    · rfl
    · dsimp only
      split
      · exact recordsOnly_freeMachine _ _ _
      · rfl

@[simp] theorem changeAccount_compartments (slot : Nat) (f : AccountRecord → AccountRecord) (s : State) :
    (changeAccount slot f s).compartments = s.compartments := (recordsOnly_changeAccount slot f s).compartments

@[simp] theorem closeMachine_compartments (id : HoseId) (x : Session) (cause : StopCause) (s : State) :
    (closeMachine id x cause s).compartments = s.compartments := (recordsOnly_closeMachine id x cause s).compartments

/-- Nothing but hoses, machines, tag index, accounts, compartments and pending notices differs: all that the end of a
session, of a request or of a run writes. -/
def SameElsewhere (s t : State) : Prop :=
  t = { s with
    machines := t.machines, tagIndex := t.tagIndex, accounts := t.accounts, compartments := t.compartments
    hoses := t.hoses, notices := t.notices }

theorem SameElsewhere.trans {s t u : State} (h : SameElsewhere s t) (k : SameElsewhere t u) : SameElsewhere s u := by
  unfold SameElsewhere at *
  rw [h] at k
  exact k

theorem SameElsewhere.banks {s t : State} (h : SameElsewhere s t) : t.banks = s.banks := by
  unfold SameElsewhere at h
  rw [h]

theorem RecordsOnly.sameElsewhere {s t : State} (h : RecordsOnly s t) : SameElsewhere s t := by
  unfold RecordsOnly at h
  rw [h]
  rfl

theorem sameElsewhere_setHose (id : HoseId) (h : Hose) (s : State) : SameElsewhere s (setHose id h s) := rfl

theorem sameElsewhere_setComp (c : CompId) (k : Compartment) (s : State) : SameElsewhere s (setComp c k s) := rfl

theorem sameElsewhere_raise (n : Notice) (s : State) : SameElsewhere s (raise n s) := by
  unfold raise
  split <;> rfl

/-! ### Restocking -/

/-- The compartment with its restock mark as R64 has it. -/
def restocked (k : Compartment) : Compartment :=
  { k with restockNeeded := decide (available k < (k.threshold * Config.litre : Nat)) }

/-- R64: the mark follows the comparison, and RESTOCK is raised where it becomes set. -/
theorem compareRestock_eq (c : CompId) (s : State) :
    compareRestock c s = setComp c (restocked (s.compartments.get c)) s
      ∨ compareRestock c s = raise (.restock c) (setComp c (restocked (s.compartments.get c)) s) := by
  have same {k : Compartment} (hk : s.compartments.get c = k) {b : Bool} (hb : k.restockNeeded = b) :
      s = setComp c { k with restockNeeded := b } s := by
    subst hb hk
    show s = { s with compartments := s.compartments.set c (s.compartments.get c) }
    rw [ByFour_set_get]
  unfold compareRestock restocked
  generalize hk : s.compartments.get c = k
  dsimp only
  cases low : decide (available k < (k.threshold * Config.litre : Nat)) <;> cases marked : k.restockNeeded
  · exact .inl (same hk marked)
  · exact .inl rfl
  · exact .inr rfl
  · exact .inl (same hk marked)

theorem sameElsewhere_compareRestock (c : CompId) (s : State) : SameElsewhere s (compareRestock c s) := by
  rcases compareRestock_eq c s with h | h <;> rw [h]
  · exact sameElsewhere_setComp _ _ _
  · exact (sameElsewhere_setComp _ _ _).trans (sameElsewhere_raise _ _)

@[simp] theorem compareRestock_hoses (c : CompId) (s : State) : (compareRestock c s).hoses = s.hoses := by
  rcases compareRestock_eq c s with h | h <;> simp [h]

/-! ### The close at the hose -/

/-- What machine, account and compartment take of a close. -/
def closeParts (id : HoseId) (x : Session) (stop : StopCause) (s : State) : State :=
  closeCompartment x (changeAccount x.account (closeAccountRecord x (chargeOf x)) (closeMachine id x stop s))

@[simp] theorem closeParts_hoses (id : HoseId) (x : Session) (stop : StopCause) (s : State) :
    (closeParts id x stop s).hoses = s.hoses := by
  rw [closeParts, closeCompartment, compareRestock_hoses, setComp_hoses, (recordsOnly_changeAccount _ _ _).hoses,
    (recordsOnly_closeMachine _ _ _ _).hoses]

theorem sameElsewhere_closeParts (id : HoseId) (x : Session) (stop : StopCause) (s : State) :
    SameElsewhere s (closeParts id x stop s) :=
  have records :
      RecordsOnly s (changeAccount x.account (closeAccountRecord x (chargeOf x)) (closeMachine id x stop s)) :=
    (recordsOnly_closeMachine _ _ _ _).trans (recordsOnly_changeAccount _ _ _)
  (records.sameElsewhere.trans (sameElsewhere_setComp _ _ _)).trans (sameElsewhere_compareRestock _ _)

/-- The hose of a closed session. -/
def closedHose (id : HoseId) (x : Session) (stop : StopCause) (h : Hose) (s : State) : Hose :=
  { stopSessionTimers h with
    session := some
      { x with
        stopCause := some stop, ended := some s.timebase.count, charge := some (chargeOf x)
        due := h.setup.collectionRequired }
    outputs := restOutputs h.outputs
    state := if hoseStopValid id s || h.stopFaultFound then .locked
      else if h.setup.collectionRequired then .complete else .idle
    stopFaultFound := false
    windowAfterClosing := false }

/-- R128 to R130: machine, account and compartment take their parts, then the hose, then SESSION_END. -/
theorem closeSession_eq {id : HoseId} {cause : Option StopCause} {s : State} {x : Session} {stop : StopCause}
    (session : (s.hoses.get id).session = some x) (stops : cause.getD (x.stopCause.getD .fault) = stop) :
    closeSession id cause s = raise (.sessionEnd id)
      (setHose id (closedHose id x stop (s.hoses.get id) s) (closeParts id x stop s)) := by
  have banks : (closeParts id x stop s).banks = s.banks := (sameElsewhere_closeParts id x stop s).banks
  have next (due : Bool) : stateAfterClose id due (closeParts id x stop s) = stateAfterClose id due s := by
    simp [stateAfterClose, hoseStopValid, stopValid, banks]
  subst stops
  simp only [closeSession, session]
  rw [show closeCompartment x (changeAccount x.account (closeAccountRecord x (chargeOf x))
    (closeMachine id x (cause.getD (x.stopCause.getD .fault)) s))
      = closeParts id x (cause.getD (x.stopCause.getD .fault)) s from rfl, next]
  rfl

theorem closeSession_none {id : HoseId} {cause : Option StopCause} {s : State}
    (session : (s.hoses.get id).session = none) : closeSession id cause s = s := by
  simp [closeSession, session]

/-! ### The machine's and the account's part of a close -/

/-- What the machine record of a close becomes, field by field (R2 to R4). -/
theorem closeMachineRecord_eq (id : HoseId) (time : Nat) (tank : TankKind) (x : Session) (cause : StopCause)
    (m : MachineRecord) : closeMachineRecord id time tank x cause m =
      { m with
        used := if tank = .fuel then m.used + x.net else m.used
        overrun := if tank = .fuel then m.overrun + x.overrun else m.overrun
        held := if tank = .fuel then 0 else m.held
        fuelLink := if tank = .fuel then none else m.fuelLink
        fluidLink := if tank = .fluid then none else m.fluidLink
        fillCount := min (m.fillCount + 1) 65535
        lastFill := some
          { time := time, hose := id, grade := x.grade, session := x.number, net := x.net, cause := cause } } := by
  cases tank <;> rfl

theorem closeMachine_none {id : HoseId} {x : Session} {cause : StopCause} {s : State} (h : x.machine = none) :
    closeMachine id x cause s = s := by simp [closeMachine, h]

theorem closeMachine_some {id : HoseId} {x : Session} {cause : StopCause} {s : State} {slot : Nat} {tank : TankKind}
    {m : MachineRecord} (h : x.machine = some (slot, tank)) (found : tableGet s.machines slot = some m) :
    ∀ m', m' = closeMachineRecord id s.timebase.count tank x cause m →
      closeMachine id x cause s =
        if m.state = .retiring ∧ m'.fuelLink = none ∧ m'.fluidLink = none then freeMachine slot m' s
        else writeMachine slot m' s := by
  rintro _ rfl
  simp only [closeMachine, h, machineAt, found]
  rfl

/-- R2 to R4, R19: what the machine record named by a session takes of its close, `u` being the state it leaves. -/
def MachinePart (id : HoseId) (x : Session) (stop : StopCause) (s u : State) : Prop :=
  (x.machine = none ∧ u = s)
    ∨ (∃ slot tank m m', x.machine = some (slot, tank) ∧ tableGet s.machines slot = some m
      ∧ m' = { m with
          used := if tank = .fuel then m.used + x.net else m.used
          overrun := if tank = .fuel then m.overrun + x.overrun else m.overrun
          held := if tank = .fuel then 0 else m.held
          fuelLink := if tank = .fuel then none else m.fuelLink
          fluidLink := if tank = .fluid then none else m.fluidLink
          fillCount := min (m.fillCount + 1) 65535
          lastFill := some
            { time := s.timebase.count, hose := id, grade := x.grade, session := x.number, net := x.net
              cause := stop } }
      ∧ ((u = { s with machines := tableSet s.machines slot (machineStamp m') }
          ∧ (m.state ≠ .retiring ∨ m'.fuelLink.isSome = true ∨ m'.fluidLink.isSome = true))
        ∨ (m.state = .retiring ∧ m'.fuelLink = none ∧ m'.fluidLink = none
          ∧ (∀ t ∈ m.fuel.toList ++ m.fluid.toList, (tableGet s.tagIndex t.tag).map TagTarget.slot = some slot)
          ∧ (∀ t ∈ m.fuel.toList, ∀ v ∈ m.fluid.toList, t.tag ≠ v.tag)
          ∧ u = changeAccount m.account (fun b => { b with references := minus b.references 1 })
            { s with
              machines := tableErase s.machines slot
              tagIndex := (m.fuel.toList ++ m.fluid.toList).foldl (fun t v => tableErase t v.tag) s.tagIndex })))

theorem closeMachine_of_part {id : HoseId} {x : Session} {stop : StopCause} {s u : State}
    (part : MachinePart id x stop s u) : closeMachine id x stop s = u := by
  rcases part with ⟨noMachine, rfl⟩ | ⟨slot, tank, m, m', names, found, m'Is, left⟩
  · exact closeMachine_none noMachine
  · rw [← closeMachineRecord_eq] at m'Is
    rw [closeMachine_some names found m' m'Is]
    rcases left with ⟨rfl, stays⟩ | ⟨retiring, noFuel, noFluid, indexed, differ, rfl⟩
    · have notFreed : ¬ (m.state = .retiring ∧ m'.fuelLink = none ∧ m'.fluidLink = none) := by
        rintro ⟨retiring, noFuel, noFluid⟩
        simp [retiring, noFuel, noFluid] at stays
      rw [if_neg notFreed]
      rfl
    · rw [if_pos ⟨retiring, noFuel, noFluid⟩, m'Is, closeMachineRecord_eq]
      exact freeMachine_eq indexed differ

/-- The account's part of a close, of an account that holds what the session had (R44, R46). -/
theorem closeAccountRecord_eq {x : Session} {a : AccountRecord} (charge : Nat) (heldFits : x.moneyHold ≤ a.held)
    (openFits : 1 ≤ a.openSessions) : closeAccountRecord x charge a =
      { a with
        balance := min (a.balance + charge) (2 ^ 63 - 1)
        held := a.held - x.moneyHold
        openSessions := a.openSessions - 1
        current :=
          { net := a.current.net.set x.grade (min (a.current.net.get x.grade + x.net) (2 ^ 63 - 1))
            charges := min (a.current.charges + charge) (2 ^ 63 - 1)
            fills := min (a.current.fills + 1) 65535 } } := by
  simp only [closeAccountRecord, minus_of_le heldFits, minus_of_le openFits]
  rfl

/-- Settles O30: the parts of machine, account and compartment one by one, put together by `closeSession_eq`. -/
theorem sessionCloseFollowsR128R130 : Obligations.SessionCloseFollowsR128R130 := by
  intro id cause s u h x a k stop charge left next hoseIs session stops machinePart found compIs heldFits openFits
    leftIs leftFits chargeIs nextIs
  have stops' : cause.getD (x.stopCause.getD .fault) = stop := by
    cases cause <;> cases hc : x.stopCause <;> simp_all
  have machineDone : closeMachine id x stop s = u := closeMachine_of_part machinePart
  have uHoses : u.hoses = s.hoses := machineDone ▸ (recordsOnly_closeMachine id x stop s).hoses
  have uComps : u.compartments = s.compartments := machineDone ▸ closeMachine_compartments id x stop s
  have charged : chargeOf x = charge := chargeIs.symm
  have compDone : minus k.committed (contribution x) = k.committed - left := by
    subst leftIs
    exact minus_of_le leftFits
  rw [closeSession_eq (hoseIs ▸ session) stops', closeParts, machineDone, charged, changeAccount_some _ found,
    closeAccountRecord_eq charge heldFits openFits, closeCompartment]
  simp only [setComp, uComps, compIs, compDone, setHose, compareRestock_hoses, uHoses]
  rw [hoseIs, closedHose, charged, nextIs]
  rfl

end Sys2Proof.Machine
end

section
/-! PROOFS. What a warm reset leaves: the books of its closes, its hoses, gauges and orders, and the rollover of a power
return (R181, R183). -/

namespace Sys2Proof.Machine

/-! ### The books: what closes write, apart from hoses and notices -/

/-- The state without its hoses and pending notices: what closes one after another leave of it depends on neither. -/
def books (s : State) : State := { s with hoses := State.reset.hoses, notices := [] }

@[simp] theorem books_raise (n : Notice) (s : State) : books (raise n s) = books s := by
  unfold raise
  split <;> rfl

@[simp] theorem books_setHose (id : HoseId) (h : Hose) (s : State) : books (setHose id h s) = books s := rfl

theorem books_changeAccount (slot : Nat) (f : AccountRecord → AccountRecord) (s : State) :
    books (changeAccount slot f s) = changeAccount slot f (books s) := by
  have same : (books s).accounts = s.accounts := rfl
  cases h : tableGet s.accounts slot with
  | none => simp only [changeAccount, same, h]
  | some a =>
    simp only [changeAccount, same, h]
    rfl

theorem books_unindexTank (slot : Nat) (t : Option Tank) (s : State) :
    books (unindexTank slot t s) = unindexTank slot t (books s) := by
  cases t with
  | none => rfl
  | some k =>
    have same : (books s).tagIndex = s.tagIndex := rfl
    cases h : tableGet s.tagIndex k.tag with
    | none => simp only [unindexTank, same, h]
    | some e =>
      simp only [unindexTank, same, h]
      split <;> rfl

theorem books_freeMachine (slot : Nat) (m : MachineRecord) (s : State) :
    books (freeMachine slot m s) = freeMachine slot m (books s) := by
  simp only [freeMachine, dropReference, books_changeAccount, books_unindexTank]
  rfl

theorem books_closeMachine (id : HoseId) (x : Session) (stop : StopCause) (s : State) :
    books (closeMachine id x stop s) = closeMachine id x stop (books s) := by
  cases names : x.machine with
  | none => rw [closeMachine_none names, closeMachine_none names]
  | some target =>
    obtain ⟨slot, tank⟩ := target
    have same : (books s).machines = s.machines := rfl
    cases found : tableGet s.machines slot with
    | none => simp only [closeMachine, names, machineAt, same, found]
    | some m =>
      rw [closeMachine_some names found _ rfl, closeMachine_some names (s := books s) found
        (closeMachineRecord id s.timebase.count tank x stop m) rfl]
      split
      · exact books_freeMachine ..
      · rfl

/-- The books after machine, account and compartment have taken their parts of a close. -/
def closeBooks (id : HoseId) (x : Session) (stop : StopCause) (b : State) : State :=
  let k := b.compartments.get x.compartment
  setComp x.compartment (restocked { k with committed := minus k.committed (contribution x) })
    (changeAccount x.account (closeAccountRecord x (chargeOf x)) (closeMachine id x stop b))

theorem books_closeParts (id : HoseId) (x : Session) (stop : StopCause) (s : State) :
    books (closeParts id x stop s) = closeBooks id x stop (books s) := by
  have restock (c : CompId) (v : State) :
      books (compareRestock c v) = setComp c (restocked (v.compartments.get c)) (books v) := by
    rcases compareRestock_eq c v with h | h <;> simp [h] <;> rfl
  have placed (c : CompId) (k : Compartment) (v : State) : books (setComp c k v) = setComp c k (books v) := rfl
  have same : (books s).compartments = s.compartments := rfl
  simp only [closeParts, closeCompartment, restock, placed, books_changeAccount, books_closeMachine, closeBooks,
    changeAccount_compartments, closeMachine_compartments, same, setComp_compartments, ByFour_get_set]
  simp only [setComp, changeAccount_compartments, closeMachine_compartments, same, ByFour_set_set]

/-- The books after hose `h` has ended its open session, if it has one. -/
def closedBooks (id : HoseId) (h : Hose) (b : State) : State :=
  if openState h.state then
    match h.session with
    | none => b
    | some x => closeBooks id x .reset b
  else b

theorem books_closeSession (id : HoseId) (s : State) (isOpen : openState (s.hoses.get id).state = true) :
    books (closeSession id (some .reset) s) = closedBooks id (s.hoses.get id) (books s) := by
  rw [closedBooks, if_pos isOpen]
  cases session : (s.hoses.get id).session with
  | none => rw [closeSession_none session]
  | some x => rw [closeSession_eq (stop := .reset) session rfl, books_raise, books_setHose, books_closeParts]

/-! ### A hose at a warm reset -/

/-- Outputs at rest and a running rewind interrupted (R109, R111). -/
def stilledHose (h : Hose) : Hose :=
  { h with
    outputs := { restOutputs h.outputs with reel := false }
    rewindTimer := if h.outputs.reel then none else h.rewindTimer
    rewindOutcome := if h.outputs.reel then .interrupted else h.rewindOutcome }

theorem setHose_setHose (id : HoseId) (a b : Hose) (s : State) : setHose id a (setHose id b s) = setHose id a s := by
  simp [setHose]

theorem stopRewind_restHose (id : HoseId) (s : State) :
    stopRewind id .interrupted (restHose id s) = setHose id (stilledHose (s.hoses.get id)) s := by
  unfold stopRewind restHose stilledHose
  generalize s.hoses.get id = h
  simp only [setHose_hoses, ByHose_get_set, setHose_setHose]
  cases reel : h.outputs.reel <;> simp [restOutputs, reel]

/-- The hose after its request, session or run has ended by the reset (R95, R134, R162). -/
def endedHose (id : HoseId) (h : Hose) (s : State) : Hose :=
  if h.state = .referred then { h with state := .idle, waiting := none, referTimer := none }
  else if openState h.state then
    match h.session with
    | none => h
    | some x => closedHose id x .reset h s
  else if provingState h.state then
    { stopSessionTimers h with
      run := h.run.map (fun r => { stopFlowing (instant s) r with outcome := .reset })
      outputs := restOutputs h.outputs
      state := if h.stopFaultFound then .locked else .idle
      stopFaultFound := false
      windowAfterClosing := false }
  else h

/-- The end of a hose's request, session or run at a warm reset. -/
def endHose (id : HoseId) (s : State) : State :=
  let h := s.hoses.get id
  if h.state = .referred then setHose id { h with state := .idle, waiting := none, referTimer := none } s
  else if openState h.state then closeSession id (some .reset) s
  else if provingState h.state then endRun id .reset (if h.stopFaultFound then .locked else .idle) s
  else s

theorem warmHose_eq (id : HoseId) (s : State) :
    warmHose id s =
      let t := endHose id (setHose id (stilledHose (s.hoses.get id)) s)
      setHose id (quietHose (t.hoses.get id)) t := by
  rw [← stopRewind_restHose]
  rfl

theorem not_open_of_referred {st : HoseState} (h : st = .referred) : openState st = false := by rw [h]; rfl

/-- What ending writes: the hose, the books of a closed session, pending notices. -/
theorem endHose_spec (id : HoseId) (s : State) :
    (endHose id s).hoses = s.hoses.set id (endedHose id (s.hoses.get id) s)
      ∧ books (endHose id s) = closedBooks id (s.hoses.get id) (books s) ∧ SameElsewhere s (endHose id s) := by
  unfold endHose endedHose closedBooks
  generalize hoseIs : s.hoses.get id = h
  have unchanged : s.hoses = s.hoses.set id h := by rw [← hoseIs, ByHose_set_get]
  dsimp only
  split
  next referred => simp [not_open_of_referred referred, sameElsewhere_setHose]
  next =>
    split
    next isOpen =>
      cases session : h.session with
      | none => rw [closeSession_none (hoseIs ▸ session)]; exact ⟨unchanged, rfl, rfl⟩
      | some x =>
        rw [closeSession_eq (hoseIs ▸ session) rfl, hoseIs]
        refine ⟨by simp, by simp [books_closeParts], ?_⟩
        exact ((sameElsewhere_closeParts ..).trans (sameElsewhere_setHose ..)).trans (sameElsewhere_raise ..)
    next =>
      split
      next =>
        simp only [endRun, hoseIs]
        exact ⟨by simp, by simp, (sameElsewhere_setHose ..).trans (sameElsewhere_raise ..)⟩
      next => exact ⟨unchanged, rfl, rfl⟩

/-- The hose after a warm reset. -/
def warmedHose (id : HoseId) (h : Hose) (s : State) : Hose := quietHose (endedHose id (stilledHose h) s)

theorem closedBooks_stilledHose (id : HoseId) (h : Hose) (b : State) :
    closedBooks id (stilledHose h) b = closedBooks id h b := rfl

theorem warmHose_spec (id : HoseId) (s : State) :
    (warmHose id s).hoses = s.hoses.set id (warmedHose id (s.hoses.get id) s)
      ∧ books (warmHose id s) = closedBooks id (s.hoses.get id) (books s) ∧ SameElsewhere s (warmHose id s) := by
  obtain ⟨hoses, booked, elsewhere⟩ := endHose_spec id (setHose id (stilledHose (s.hoses.get id)) s)
  simp only [setHose_hoses, ByHose_get_set, ByHose_set_set] at hoses
  simp only [setHose_hoses, ByHose_get_set, closedBooks_stilledHose, books_setHose] at booked
  rw [warmHose_eq]
  refine ⟨?_, booked, ((sameElsewhere_setHose ..).trans elsewhere).trans (sameElsewhere_setHose ..)⟩
  simp only [setHose_hoses, hoses, ByHose_get_set, ByHose_set_set]
  rfl

/-- The hose of a warm reset depends on banks and timebase alone. -/
theorem warmedHose_congr (id : HoseId) (h : Hose) {s t : State} (elsewhere : SameElsewhere s t) :
    warmedHose id h t = warmedHose id h s := by
  rw [elsewhere]
  rfl

/-- All three hoses at a warm reset, taken 1 to 3. -/
def warmHoses (s : State) : State := warmHose .h3 (warmHose .h2 (warmHose .h1 s))

theorem warmHoses_elsewhere (s : State) : SameElsewhere s (warmHoses s) :=
  ((warmHose_spec .h1 s).2.2.trans (warmHose_spec .h2 _).2.2).trans (warmHose_spec .h3 _).2.2

theorem warmHoses_hoses (id : HoseId) (s : State) :
    (warmHoses s).hoses.get id = warmedHose id (s.hoses.get id) s := by
  obtain ⟨hoses1, -, else1⟩ := warmHose_spec .h1 s
  obtain ⟨hoses2, -, else2⟩ := warmHose_spec .h2 (warmHose .h1 s)
  obtain ⟨hoses3, -, -⟩ := warmHose_spec .h3 (warmHose .h2 (warmHose .h1 s))
  rw [warmedHose_congr _ _ (else1.trans else2)] at hoses3
  rw [warmedHose_congr _ _ else1] at hoses2
  simp only [warmHoses, hoses3, hoses2, hoses1]
  cases id <;> rfl

/-- The closes of a warm reset, hoses 1 to 3. -/
def booksAfter (s : State) : State :=
  closedBooks .h3 (s.hoses.get .h3) (closedBooks .h2 (s.hoses.get .h2) (closedBooks .h1 (s.hoses.get .h1) (books s)))

theorem warmHoses_books (s : State) : books (warmHoses s) = booksAfter s := by
  obtain ⟨hoses1, books1, -⟩ := warmHose_spec .h1 s
  obtain ⟨hoses2, books2, -⟩ := warmHose_spec .h2 (warmHose .h1 s)
  obtain ⟨-, books3, -⟩ := warmHose_spec .h3 (warmHose .h2 (warmHose .h1 s))
  rw [warmHoses, books3, books2, books1, hoses2, hoses1]
  rfl

/-! ### The closes of a warm reset, in the statement's terms -/

/-- The close of an open session with cause RESET; a hose without one is left. -/
def resetClose (id : HoseId) (s : State) : State :=
  if openState (s.hoses.get id).state then closeSession id (some .reset) s else s

theorem closeSession_hoses_ne {id g : HoseId} (cause : Option StopCause) (s : State) (ne : g ≠ id) :
    (closeSession id cause s).hoses.get g = s.hoses.get g := by
  cases session : (s.hoses.get id).session with
  | none => rw [closeSession_none session]
  | some x => simp [closeSession_eq session rfl, ByHose_get_set_ne _ _ _ _ ne]

theorem resetClose_spec (id : HoseId) (s : State) :
    (∀ g, g ≠ id → (resetClose id s).hoses.get g = s.hoses.get g)
      ∧ books (resetClose id s) = closedBooks id (s.hoses.get id) (books s) := by
  unfold resetClose
  split
  next isOpen => exact ⟨fun g ne => closeSession_hoses_ne _ s ne, books_closeSession id s isOpen⟩
  next notOpen => exact ⟨fun _ _ => rfl, by rw [closedBooks, if_neg notOpen]⟩

/-- The closes one after another leave the books of a warm reset. -/
theorem resetCloses_books (s : State) : books (resetClose .h3 (resetClose .h2 (resetClose .h1 s))) = booksAfter s := by
  obtain ⟨hoses1, books1⟩ := resetClose_spec .h1 s
  obtain ⟨hoses2, books2⟩ := resetClose_spec .h2 (resetClose .h1 s)
  obtain ⟨-, books3⟩ := resetClose_spec .h3 (resetClose .h2 (resetClose .h1 s))
  rw [books3, books2, books1, hoses2 .h3 (by decide), hoses1 .h3 (by decide), hoses1 .h2 (by decide), booksAfter]

/-! ### Machine records over the closes -/

/-- The host-set fields of a machine record (1.1). -/
def hostSet (m : MachineRecord) : Nat × Nat × Bool × Option Tank × Option Tank × Nat :=
  (m.number, m.account, m.manualPermitted, m.fuel, m.fluid, m.allowance)

/-- The tank has no link; a fuel tank then holds nothing of the day. -/
def Unlinked (tank : TankKind) (m : MachineRecord) : Prop :=
  (tank = .fuel → m.fuelLink = none ∧ m.held = 0) ∧ (tank = .fluid → m.fluidLink = none)

/-- No record is new, host-set fields are as before, and a tank without a link gets none. -/
def MachinesKept (before after : Table MachineRecord) : Prop :=
  ∀ slot m', tableGet after slot = some m' → ∃ m, tableGet before slot = some m ∧ hostSet m' = hostSet m
    ∧ ∀ tank, Unlinked tank m → Unlinked tank m'

theorem MachinesKept.refl (t : Table MachineRecord) : MachinesKept t t := fun _ m h => ⟨m, h, rfl, fun _ => id⟩

theorem MachinesKept.trans {t u v : Table MachineRecord} (h : MachinesKept t u) (k : MachinesKept u v) :
    MachinesKept t v := by
  intro slot m'' found
  obtain ⟨m', found', same', kept'⟩ := k slot m'' found
  obtain ⟨m, found, same, kept⟩ := h slot m' found'
  exact ⟨m, found, same'.trans same, fun tank u => kept' tank (kept tank u)⟩

theorem machinesKept_erase (t : Table MachineRecord) (slot : Nat) : MachinesKept t (tableErase t slot) := by
  intro i m' found
  rw [tableGet_erase] at found
  split at found
  · cases found
  · exact ⟨m', found, rfl, fun _ => id⟩

theorem machinesKept_set {t : Table MachineRecord} {slot : Nat} {m m' : MachineRecord}
    (found : tableGet t slot = some m) (same : hostSet m' = hostSet m) (kept : ∀ tank, Unlinked tank m → Unlinked tank m') :
    MachinesKept t (tableSet t slot m') := by
  intro i r hr
  rw [tableGet_set] at hr
  split at hr
  next is =>
    obtain rfl := Option.some.inj hr
    subst is
    exact ⟨m, found, same, kept⟩
  next => exact ⟨r, hr, rfl, fun _ => id⟩

theorem closeMachineRecord_keeps (id : HoseId) (time : Nat) (kind : TankKind) (x : Session) (stop : StopCause)
    (m : MachineRecord) (tank : TankKind) (h : Unlinked tank m) :
    Unlinked tank (closeMachineRecord id time kind x stop m) := by
  obtain ⟨fuel, fluid⟩ := h
  rw [closeMachineRecord_eq]
  refine ⟨fun isFuel => ?_, fun isFluid => ?_⟩
  · obtain ⟨link, held⟩ := fuel isFuel
    simp [link, held]
  · simp [fluid isFluid]

theorem closeMachineRecord_unlinks (id : HoseId) (time : Nat) (tank : TankKind) (x : Session) (stop : StopCause)
    (m : MachineRecord) : Unlinked tank (closeMachineRecord id time tank x stop m) := by
  rw [closeMachineRecord_eq]
  exact ⟨fun isFuel => by simp [isFuel], fun isFluid => by simp [isFluid]⟩

theorem closeMachine_kept (id : HoseId) (x : Session) (stop : StopCause) (s : State) :
    MachinesKept s.machines (closeMachine id x stop s).machines := by
  cases names : x.machine with
  | none => rw [closeMachine_none names]; exact .refl _
  | some target =>
    obtain ⟨slot, kind⟩ := target
    cases found : tableGet s.machines slot with
    | none => simpa only [closeMachine, names, machineAt, found] using .refl _
    | some m =>
      rw [closeMachine_some names found _ rfl]
      split
      · rw [freeMachine_machines]
        exact machinesKept_erase _ _
      · refine machinesKept_set found ?_ (closeMachineRecord_keeps id _ kind x stop m)
        rw [closeMachineRecord_eq]
        rfl

/-- The tank of a closed session has lost its link, where its record still stands. -/
theorem closeMachine_unlinks {id : HoseId} {x : Session} {stop : StopCause} {s : State} {slot : Nat} {tank : TankKind}
    {m' : MachineRecord} (names : x.machine = some (slot, tank))
    (found' : tableGet (closeMachine id x stop s).machines slot = some m') : Unlinked tank m' := by
  cases found : tableGet s.machines slot with
  | none =>
    rw [show closeMachine id x stop s = s by simp only [closeMachine, names, machineAt, found], found] at found'
    cases found'
  | some m =>
    rw [closeMachine_some names found _ rfl] at found'
    split at found'
    · simp [freeMachine_machines, tableGet_erase] at found'
    · simp only [writeMachine_machines, tableGet_set, if_true, Option.some.injEq] at found'
      subst found'
      exact closeMachineRecord_unlinks id _ tank x stop m

theorem closeBooks_machines (id : HoseId) (x : Session) (stop : StopCause) (b : State) :
    (closeBooks id x stop b).machines = (closeMachine id x stop b).machines := by
  simp [closeBooks]

theorem closedBooks_kept (id : HoseId) (h : Hose) (b : State) :
    MachinesKept b.machines (closedBooks id h b).machines := by
  unfold closedBooks
  split
  · split
    · exact .refl _
    · rw [closeBooks_machines]
      exact closeMachine_kept _ _ _ _
  · exact .refl _

theorem closedBooks_unlinks {id : HoseId} {h : Hose} {b : State} {x : Session} {slot : Nat} {tank : TankKind}
    {m' : MachineRecord} (isOpen : openState h.state = true) (session : h.session = some x)
    (names : x.machine = some (slot, tank)) (found : tableGet (closedBooks id h b).machines slot = some m') :
    Unlinked tank m' := by
  simp only [closedBooks, isOpen, if_true, session, closeBooks_machines] at found
  exact closeMachine_unlinks names found

theorem MachinesKept.unlinked {before after : Table MachineRecord} {slot : Nat} {tank : TankKind} {m' : MachineRecord}
    (kept : MachinesKept before after) (unlinked : ∀ m, tableGet before slot = some m → Unlinked tank m)
    (found : tableGet after slot = some m') : Unlinked tank m' := by
  obtain ⟨m, found, -, keeps⟩ := kept slot m' found
  exact keeps tank (unlinked m found)

theorem booksAfter_kept (s : State) : MachinesKept s.machines (booksAfter s).machines :=
  ((closedBooks_kept .h1 _ (books s)).trans (closedBooks_kept .h2 _ _)).trans (closedBooks_kept .h3 _ _)

/-- After the closes no tank of an open session has a link: its own close takes it, and the later ones give none. -/
theorem booksAfter_unlinks {s : State} {id : HoseId} {x : Session} {slot : Nat} {tank : TankKind} {m' : MachineRecord}
    (isOpen : openState (s.hoses.get id).state = true) (session : (s.hoses.get id).session = some x)
    (names : x.machine = some (slot, tank)) (found : tableGet (booksAfter s).machines slot = some m') :
    Unlinked tank m' := by
  cases id with
  | h1 =>
    exact ((closedBooks_kept .h2 _ _).trans (closedBooks_kept .h3 _ _)).unlinked
      (fun _ => closedBooks_unlinks isOpen session names) found
  | h2 => exact (closedBooks_kept .h3 _ _).unlinked (fun _ => closedBooks_unlinks isOpen session names) found
  | h3 => exact closedBooks_unlinks isOpen session names found

/-! ### Gauges, orders and the rest -/

/-- A compartment without its gauge in flight (R77). -/
def ungauged (k : Compartment) : Compartment :=
  { k with gauge := none, outcome := if k.gauge.isSome then .aborted else k.outcome }

theorem abortGauge_eq (c : CompId) (s : State) : abortGauge c s = setComp c (ungauged (s.compartments.get c)) s := by
  cases gauge : (s.compartments.get c).gauge with
  | none =>
    have same : ungauged (s.compartments.get c) = s.compartments.get c := by
      generalize s.compartments.get c = k at gauge
      cases k
      simp_all [ungauged]
    rw [same]
    simp only [abortGauge, gauge, setComp, ByFour_set_get]
  | some g => simp [abortGauge, gauge, ungauged]

theorem abortGauges_eq (s : State) : abortGauges s = { s with compartments := s.compartments.map ungauged } := by
  simp only [abortGauges, abortGauge_eq]
  rfl

/-- The compartment of the active order returns to IN_SERVICE (R178). -/
def warmComp (active : Option (Nat × LoadOrder)) (c : CompId) (k : Compartment) : Compartment :=
  { k with state := if active.any (fun p => p.2.compartment == c) then .inService else k.state }

theorem warmLoads_compartments (s : State) (c : CompId) :
    (warmLoads s).compartments.get c = warmComp (activeOrder s) c (s.compartments.get c) := by
  unfold warmLoads warmComp
  cases active : activeOrder s with
  | none => rfl
  | some p =>
    simp only [setLoads_compartments, releaseCompartment, setComp_compartments, ByFour_get_set_cases, Option.any_some]
    by_cases is : c = p.2.compartment
    · subst is; simp
    · simp [is, Ne.symm is]

theorem warmLoads_eq (s : State) : warmLoads s =
    { s with
      compartments := (warmLoads s).compartments
      loads := { s.loads with
        orders := s.loads.orders.map (fun p => (p.1, warmOrder s.timebase.count p.2))
        valveOpen := false, beforeEnded := false, armTimer := none, idleTimer := none, settleTimer := none
        watch := none } } := by
  unfold warmLoads
  split <;> rfl

/-! ### The warm reset, block by block -/

/-- The state a warm reset leaves, `w` being what its hoses leave (R183). -/
def warmed (cause : ResetCause) (w : State) : State :=
  evaluatePermit { w with
    compartments := (warmLoads (abortGauges w)).compartments
    loads := { w.loads with
      orders := w.loads.orders.map (fun p => (p.1, warmOrder w.timebase.count p.2))
      valveOpen := false, beforeEnded := false, armTimer := none, idleTimer := none, settleTimer := none
      watch := none }
    channels := w.channels.map warmChannel
    readers := w.readers.map (warmReader w.timebase.now)
    port := Port.cold
    store := checkStore w.store
    timebase := { w.timebase with
      window := 200, pendingWindow := 200, windowStart := w.timebase.now, holdOff := none
      lastReset := { kind := .warm, cause := cause, count := w.timebase.count } }
    field := (clearChanges w).field
    notices := [.restarted]
    noticeMask := BitVec.ofNat 8 255
    supply := { w.supply with power := .running } }

/-- R188: RESTARTED is raised in the emptied set under the full mask. -/
theorem raise_restarted (s : State) (mask : s.noticeMask = BitVec.ofNat 8 255) (none : s.notices = []) :
    raise .restarted s = { s with notices := [.restarted] } := by
  have enabled : maskEnables s.noticeMask .restarted = true := by rw [mask]; decide
  simp only [raise, enabled, if_true, none, insertNotice]

/-- The rest of a warm reset, once the hoses, gauges and orders have had theirs. -/
def warmBlocks (s : State) : State :=
  { s with
    channels := s.channels.map warmChannel
    readers := s.readers.map (warmReader s.timebase.now)
    port := Port.cold
    store := checkStore s.store
    timebase := warmTimebase s.timebase
    field := (clearChanges s).field
    notices := []
    noticeMask := BitVec.ofNat 8 255
    drivePermit := false }

theorem warmLoads_abortGauges (w : State) : warmLoads (abortGauges w) =
    { w with
      compartments := (warmLoads (abortGauges w)).compartments
      loads := { w.loads with
        orders := w.loads.orders.map (fun p => (p.1, warmOrder w.timebase.count p.2))
        valveOpen := false, beforeEnded := false, armTimer := none, idleTimer := none, settleTimer := none
        watch := none } } := by
  rw [abortGauges_eq]
  exact warmLoads_eq _

theorem endReset_warmBlocks (cause : ResetCause) (w : State) :
    endReset .warm cause (warmBlocks (warmLoads (abortGauges w))) = warmed cause w := by
  unfold endReset warmed
  rw [raise_restarted _ rfl rfl, warmLoads_abortGauges]
  rfl

theorem warmReset_eq (cause : ResetCause) (s : State) : warmReset cause s = warmed cause (warmHoses s) :=
  endReset_warmBlocks cause (warmHoses s)

theorem evaluatePermit_warmReset (cause : ResetCause) (s : State) :
    evaluatePermit (warmReset cause s) = warmReset cause s := rfl

/-- An order at a warm reset, with its docket variance written out (R178). -/
theorem warmOrder_eq (time : Nat) (o : LoadOrder) : warmOrder time o =
    match o.state with
    | .armed => { o with state := .cancelled, endCause := some .reset, completed := some time }
    | .loading =>
      { o with
        state := .complete, endCause := some .reset, flowEnd := some time
        docketVariance := some ((o.net : Int) - o.expected * 1000000), completed := some time }
    | .settling =>
      { o with
        state := .complete, endCause := some .reset
        docketVariance := some ((o.net : Int) - o.expected * 1000000), completed := some time }
    | _ => o := by
  have variance : docketVarianceOf o = (o.net : Int) - o.expected * 1000000 := by simp [docketVarianceOf, Config.litre]
  cases state : o.state <;> simp only [warmOrder, state, variance]

/-! ### The rollover of a power return (R181) -/

/-- The rollover instants up to `t` are numbered from 0. -/
theorem lt_instantsUpTo_iff (r t k : Nat) : k < instantsUpTo r t ↔ r + 86400 * k ≤ t := by
  simp only [instantsUpTo, Config.dayLength]
  split <;> omega

theorem instantBetween_iff {r : Nat} (hr : r < 86400) (a b : Nat) :
    instantBetween r a b = true ↔ ∃ n, n % 86400 = r ∧ a < n ∧ n ≤ b := by
  rw [instantBetween, decide_eq_true_iff]
  constructor
  · intro less
    have after := mt (lt_instantsUpTo_iff r a (instantsUpTo r a)).2 (lt_irrefl _)
    have upTo := (lt_instantsUpTo_iff r b (instantsUpTo r a)).1 less
    exact ⟨r + 86400 * instantsUpTo r a, by omega, by omega, upTo⟩
  · rintro ⟨n, rfl, after, upTo⟩
    have passedB := (lt_instantsUpTo_iff (n % 86400) b (n / 86400)).2 (by omega)
    have notPassedA := mt (lt_instantsUpTo_iff (n % 86400) a (n / 86400)).1 (by omega)
    omega

theorem instantsPassed_iff {r : Nat} (hr : r < 86400) (a b : Nat) :
    instantsPassed r a b = true ↔
      ∃ n, n % 86400 = r ∧ (if a ≤ b then a < n ∧ n ≤ b else (a < n ∧ n < 2 ^ 32) ∨ n ≤ b) := by
  unfold instantsPassed
  by_cases le : a ≤ b
  · simp only [le, if_true, instantBetween_iff hr]
  · have some_upTo : 0 < instantsUpTo r b ↔ ∃ n, n % 86400 = r ∧ n ≤ b := by
      rw [lt_instantsUpTo_iff]
      exact ⟨fun h => ⟨r, Nat.mod_eq_of_lt hr, by omega⟩, fun ⟨n, hn, upTo⟩ => by omega⟩
    have wrap (n : Nat) : n ≤ Config.clockModulus - 1 ↔ n < 2 ^ 32 := by
      simp only [Config.clockModulus]
      omega
    simp only [le, if_false, Bool.or_eq_true, decide_eq_true_iff, instantBetween_iff hr, some_upTo, wrap, ← exists_or,
      ← and_or_left]

end Sys2Proof.Machine
end

section
/-! PROOFS. The statement on warm resets: the hoses by state, the other blocks one by one, and the three ways in. -/

namespace Sys2Proof.Machine

/-- The timebase a warm reset leaves (R179, R180, R183). -/
theorem warmReset_timebase (cause : ResetCause) (s : State) : (warmReset cause s).timebase =
    { s.timebase with
      window := 200, pendingWindow := 200, windowStart := s.timebase.now, holdOff := none
      lastReset := { kind := .warm, cause := cause, count := s.timebase.count } } := by
  have elsewhere := warmHoses_elsewhere s
  rw [warmReset_eq]
  generalize warmHoses s = w at elsewhere
  rw [elsewhere]
  rfl

/-- R181: the power return after a warm reset applies one rollover where an instant was passed. -/
theorem returnRollover_warmReset (s : State) (hr : s.timebase.rolloverSecond < 86400) (passed : Prop)
    (passedIs : passed ↔ ∃ n, n % 86400 = s.timebase.rolloverSecond
      ∧ (if s.timebase.lastCounted ≤ s.timebase.count then s.timebase.lastCounted < n ∧ n ≤ s.timebase.count
        else (s.timebase.lastCounted < n ∧ n < 2 ^ 32) ∨ n ≤ s.timebase.count)) (t : State)
    (tIs : t = warmReset .powerUp s) :
    (s.timebase.clockSet = true → passed → returnRollover t = raise .day
      { t with
        machines := t.machines.map (fun p => (p.1, machineStamp { p.2 with used := 0, overrun := 0 }))
        timebase := { t.timebase with lastRollover := some s.timebase.count } })
    ∧ (s.timebase.clockSet = false ∨ ¬ passed → returnRollover t = t) := by
  have base := warmReset_timebase .powerUp s
  rw [← tIs] at base
  have count : t.timebase.count = s.timebase.count := by rw [base]
  have isPassed : instantsPassed t.timebase.rolloverSecond t.timebase.lastCounted t.timebase.count = true ↔ passed := by
    rw [base, passedIs]
    exact instantsPassed_iff hr _ _
  have isSet : t.timebase.clockSet = s.timebase.clockSet := by rw [base]
  refine ⟨fun set now => ?_, fun none => if_neg ?_⟩
  · rw [returnRollover, if_pos (by simp [isSet, set, isPassed.2 now]), rollover, count]
  · rcases none with notSet | notPassed
    · simp [isSet, notSet]
    · simp [Bool.eq_false_iff.2 (mt isPassed.1 notPassed)]

/-! ### The hoses of a warm reset, by state -/

/-- A hose at rest after a warm reset (R95, R104, R109, R111). -/
def restedHose (h : Hose) : Hose :=
  { h with
    outputs := Outputs.rest, lowFlowRun := 0, overspeedRun := 0, paired := none
    rewindTimer := if h.outputs.reel then none else h.rewindTimer
    rewindOutcome := if h.outputs.reel then .interrupted else h.rewindOutcome }

section
variable {id : HoseId} {h : Hose} {s : State}

theorem warmedHose_rests (rests : [HoseState.idle, .complete, .locked, .outOfService].contains h.state = true) :
    warmedHose id h s = restedHose h := by
  have ended : endedHose id (stilledHose h) s = stilledHose h := by
    have same : (stilledHose h).state = h.state := rfl
    unfold endedHose
    rw [same]
    generalize h.state = st at rests ⊢
    cases st <;> first | rfl | cases rests
  rw [warmedHose, ended]
  rfl

theorem warmedHose_referred (referred : h.state = .referred) :
    warmedHose id h s = { restedHose h with state := .idle, waiting := none, referTimer := none } := by
  rw [warmedHose, endedHose, if_pos (show (stilledHose h).state = .referred from referred)]
  rfl

theorem warmedHose_open {x : Session} (isOpen : openState h.state = true) (session : h.session = some x) :
    warmedHose id h s =
      { restedHose h with
        session := some
          { x with
            stopCause := some .reset, ended := some s.timebase.count
            charge := some ((2 * (x.net * x.price) + 1000000) / 2000000), due := h.setup.collectionRequired }
        state := if hoseStopValid id s || h.stopFaultFound then .locked
          else if h.setup.collectionRequired then .complete else .idle
        readyTimer := none, resumeTimer := none, settleTimer := none, stopFaultFound := false
        windowAfterClosing := false } := by
  have notReferred : (stilledHose h).state ≠ .referred := fun is => by
    simp [not_open_of_referred (st := h.state) is] at isOpen
  rw [warmedHose, endedHose, if_neg notReferred, if_pos (show openState (stilledHose h).state = true from isOpen),
    show (stilledHose h).session = some x from session]
  rfl

theorem warmedHose_proving (proving : [HoseState.proveReady, .proveFlowing, .proveHeld].contains h.state = true) :
    warmedHose id h s =
      { restedHose h with
        run := h.run.map (fun r => { r with
          flowingTime := r.flowOpened.elim r.flowingTime (fun o => min (s.timebase.now - o) (2 ^ 32 - 1))
          flowOpened := none, outcome := .reset })
        state := if h.stopFaultFound then .locked else .idle
        readyTimer := none, resumeTimer := none, settleTimer := none, stopFaultFound := false
        windowAfterClosing := false } := by
  have notReferred : (stilledHose h).state ≠ .referred := fun is => by
    rw [show h.state = .referred from is] at proving
    cases proving
  have notOpen : ¬ openState (stilledHose h).state = true := fun is => by
    change openState h.state = true at is
    revert proving is
    cases h.state <;> decide
  have isProving : provingState (stilledHose h).state = true := by
    change provingState h.state = true
    revert proving
    cases h.state <;> decide
  have run : (fun r => { stopFlowing (instant s) r with outcome := .reset }) = fun r : Run => { r with
      flowingTime := r.flowOpened.elim r.flowingTime (fun o => min (s.timebase.now - o) (2 ^ 32 - 1))
      flowOpened := none, outcome := .reset } := by
    funext r
    cases opened : r.flowOpened <;> simp [stopFlowing, flowingTimeNow, opened, instant]
  rw [warmedHose, endedHose, if_neg notReferred, if_neg notOpen, if_pos isProving, run]
  rfl

end

/-! ### The other blocks of a warm reset -/

section
variable {s w : State} (elsewhere : SameElsewhere s w) (cause : ResetCause)
include elsewhere

theorem warmed_kept : ((warmed cause w).banks, (warmed cause w).ranges, (warmed cause w).defaultPolicy,
      (warmed cause w).prices, (warmed cause w).pending)
    = (s.banks, s.ranges, s.defaultPolicy, s.prices, s.pending) := by
  rw [elsewhere]
  rfl

theorem warmed_store : (warmed cause w).store = checkStore s.store := by
  rw [elsewhere]
  rfl

theorem warmed_supply : (warmed cause w).supply = { s.supply with power := .running } := by
  rw [elsewhere]
  rfl

theorem warmed_field : (warmed cause w).field = (clearChanges s).field := by
  rw [elsewhere]
  rfl

theorem warmed_reader (id : HoseId) :
    (warmed cause w).readers.get id = warmReader s.timebase.now (s.readers.get id) := by
  rw [elsewhere]
  exact ByHose_get_map ..

theorem warmed_channel (m : MeterId) : (warmed cause w).channels.get m = warmChannel (s.channels.get m) := by
  rw [elsewhere]
  exact ByFour_get_map ..

theorem warmed_comp (d : CompId) :
    (warmed cause w).compartments.get d = warmComp (activeOrder s) d (ungauged (w.compartments.get d)) := by
  have active : activeOrder (abortGauges w) = activeOrder s := by
    rw [abortGauges_eq, elsewhere]
    rfl
  change (warmLoads (abortGauges w)).compartments.get d = _
  rw [warmLoads_compartments, active, abortGauges_eq]
  exact congrArg _ (ByFour_get_map ..)

theorem warmed_loads : (warmed cause w).loads =
    { s.loads with
      orders := s.loads.orders.map (fun p => (p.1, warmOrder s.timebase.count p.2))
      valveOpen := false, beforeEnded := false, armTimer := none, idleTimer := none, settleTimer := none
      watch := none } := by
  rw [elsewhere]
  rfl

end

/-- R25, R60: what the closes leave of the machine records. -/
theorem booksAfter_machine {s : State} {slot : Nat} {m' : MachineRecord}
    (found : tableGet (booksAfter s).machines slot = some m') :
    ∃ m, tableGet s.machines slot = some m ∧ hostSet m' = hostSet m
      ∧ ∀ id x tank, openState (s.hoses.get id).state = true → (s.hoses.get id).session = some x →
        x.machine = some (slot, tank) →
        (tank = .fuel → m'.fuelLink = none ∧ m'.held = 0) ∧ (tank = .fluid → m'.fluidLink = none) := by
  obtain ⟨m, before, same, -⟩ := booksAfter_kept s slot m' found
  exact ⟨m, before, same, fun _ _ _ isOpen session names => booksAfter_unlinks isOpen session names found⟩

/-- Settles O53: the three ways into a warm reset, then its blocks one by one. -/
theorem warmResetFollowsR183 : Obligations.WarmResetFollowsR183 := by
  refine ⟨fun s => ⟨fun running => ?_, fun ready => ?_, fun kept inDay t passed tIs passedIs => ?_⟩,
    fun s t u cause close tIs closeIs uIs => ?_⟩
  · have whole : exec .resetPin s = happens (warmReset .resetPin s) :=
      (exec_resetPin s).trans (fieldRow_running running)
    rw [whole, happens, evaluatePermit_warmReset]
  · have whole : exec .restart s = happens (warmReset .restart s) :=
      (exec_restart s).trans (hostRow_waits ready rfl)
    rw [whole, happens, evaluatePermit_warmReset]
  · have up : exec .powerUp s = .next (returnRollover t) := by
      rw [exec_powerUp, execPowerUp, powerUp, kept, tIs]
      rfl
    obtain ⟨rolls, rests⟩ := returnRollover_warmReset s inDay passed passedIs t tIs
    exact ⟨fun set now => by rw [up, rolls set now], fun none => by rw [up, rests none]⟩
  · have uChain : u = resetClose .h3 (resetClose .h2 (resetClose .h1 s)) := by
      rw [uIs, closeIs .h3, closeIs .h2, closeIs .h1]
      rfl
    have uBooks : books u = booksAfter s := uChain ▸ resetCloses_books s
    have timebase : t.timebase = _ := tIs ▸ warmReset_timebase cause s
    have elsewhere := warmHoses_elsewhere s
    have wBooks := warmHoses_books s
    have hoses := fun id => warmHoses_hoses id s
    rw [warmReset_eq] at tIs
    generalize warmHoses s = w at elsewhere wBooks hoses tIs
    subst tIs
    have same : books w = books u := wBooks.trans uBooks.symm
    have tables := congrArg (fun b : State => (b.machines, b.accounts, b.tagIndex)) same
    have comps : (books w).compartments = (books u).compartments := congrArg State.compartments same
    refine ⟨?_, fun slot m' found => ?_, warmed_kept elsewhere cause, warmed_store elsewhere cause, rfl, rfl, rfl,
      warmed_supply elsewhere cause, timebase, warmed_field elsewhere cause, warmed_reader elsewhere cause,
      warmed_channel elsewhere cause, fun id h base hoseIs baseIs => ?_, fun d => ?_, ?_⟩
    · exact tables
    · exact booksAfter_machine (wBooks ▸ found)
    · have hose : (warmed cause w).hoses.get id = warmedHose id h s := hoseIs ▸ hoses id
      subst baseIs
      rw [hose]
      exact ⟨warmedHose_rests, warmedHose_referred, fun _ => warmedHose_open, warmedHose_proving⟩
    · rw [← show w.compartments = u.compartments from comps]
      exact warmed_comp elsewhere cause d
    · have orders := funext fun p : Nat × LoadOrder => congrArg (Prod.mk p.1) (warmOrder_eq s.timebase.count p.2)
      exact (warmed_loads elsewhere cause).trans (orders ▸ rfl)

end Sys2Proof.Machine
end

section
/-! PROOFS. The reader ports, operation by operation: the two commands with their checks, the receiver and its FIFO, the
assembler, and what every closed frame leaves. -/

namespace Sys2Proof.Machine

/-! ### Placing a reader -/

@[simp] theorem setReader_setReader (h : HoseId) (a b : Reader) (s : State) :
    setReader h a (setReader h b s) = setReader h a s := by simp [setReader]

/-! ### The commands (R38, R39) -/

theorem readerFieldsOk_eq (baud q g : Nat) : readerFieldsOk baud q g =
    ([9600, 19200, 38400].contains baud && decide (q ≤ 100 ∧ 500 ≤ g ∧ g ≤ 10000)) := by
  rw [Bool.eq_iff_iff]
  simp [readerFieldsOk, inRange_iff, and_assoc, or_assoc]

theorem requestOrSession_eq (st : HoseState) : requestOrSession st =
    [HoseState.referred, .ready, .flowing, .slowing, .paused, .stopping].contains st := by
  cases st <;> rfl

/-- Settles O8: the branches of READER SETUP are the checks of R38 in order; READER STATUS has none. -/
theorem readerCommandsFollowR38R39 : Obligations.ReaderCommandsFollowR38R39 := by
  refine fun h s ready => ⟨fun baud q g => hostRow_checkedReply ready ?_, fun clear => hostRow_answers ready ?_⟩
  · simp only [doReaderSetup, hoseOf_number]
    refine ite_eq_checkedReply (by rw [readerFieldsOk_eq, Bool.not_eq_true']) fun _ => ?_
    by_cases same : (s.readers.get h).baud = baud
    · simp [same, checkedReply, answer, setReader]
    · have new : (baud == (s.readers.get h).baud) = false := beq_false_of_ne (Ne.symm same)
      rw [if_neg same]
      refine ite_eq_checkedReply (by rw [requestOrSession_eq, new, Bool.false_or, Bool.not_eq_false']) fun _ => ?_
      simp [Ne.symm same, answer, setReader]
  · cases clear with
    | true => simp [doReaderStatus, okWith, reply, setReader, clearCounts, instant]
    | false => simp [doReaderStatus, okWith, reply, instant]

/-! ### The receiver and its FIFO (R26, R27) -/

/-- R26: the condition of the entry a character makes. -/
theorem entryCondition_lineCondition (data : Byte) (parity stop : Bool) :
    entryCondition (lineCondition data parity stop) =
      if stop = false then EntryCondition.framing
      else if (((List.range 8).filter (fun i => data.getLsbD i)).length + parity.toNat) % 2 = 0 then .good
      else .parity := by
  have bits : List.range 8 = [0, 1, 2, 3, 4, 5, 6, 7] := rfl
  have weight : parity.toNat = if parity then 1 else 0 := by cases parity <;> rfl
  rw [bits, weight, lineCondition, ones, apply_ite entryCondition, apply_ite entryCondition]
  rfl

theorem changeNewest_concat (f : FifoEntry → FifoEntry) (older : List FifoEntry) (e : FifoEntry) :
    changeNewest f (older ++ [e]) = older ++ [f e] := by
  induction older with
  | nil => rfl
  | cons a rest ih =>
    cases rest with
    | nil => rfl
    | cons b rest => exact congrArg (a :: ·) ih

/-- R27: a character at a FIFO with room. -/
theorem receiveCharacter_room {r : Reader} (data : Byte) (c : LineCondition) (room : r.fifo.length < 32) :
    receiveCharacter data c r =
      { r with
        fifo := r.fifo ++ [{ data := data, condition := entryCondition c, events := [] }]
        highWater := max r.highWater (r.fifo.length + 1) } := if_pos room

/-- R27: a character at a full FIFO. -/
theorem receiveCharacter_full {r : Reader} {older : List FifoEntry} {e : FifoEntry} (data : Byte) (c : LineCondition)
    (full : 32 ≤ r.fifo.length) (newest : r.fifo = older ++ [e]) :
    receiveCharacter data c r = { r with fifo := older ++ [{ e with condition := .overrun }] } := by
  rw [receiveCharacter, if_neg (show ¬ r.fifo.length < Config.fifoDepth from Nat.not_lt.2 full), newest,
    changeNewest_concat]

section
variable {h : HoseId} {s : State} {r : Reader} (at_h : s.readers.get h = r)
include at_h

/-- R26: a gap after a character is one idle event. -/
theorem gapFound_delivered (delivered : r.receiver = .delivered) :
    gapFound h s = lineEvent h .idle (setReader h (remember .quiet r) s) := by
  simp [gapFound, at_h, delivered]

/-- R26: no gap but one after a character is reported. -/
theorem gapFound_unreported (silent : r.receiver ≠ .delivered) : gapFound h s = setReader h (remember .quiet r) s := by
  simp only [gapFound, at_h]
  cases line : r.receiver with
  | delivered => exact absurd line silent
  | quiet => rfl
  | breaking => rfl

/-- R26: a break already reported is no event. -/
theorem breakFound_reported (breaking : r.receiver = .breaking) : breakFound h false s = s := by
  simp [breakFound, at_h, breaking]

/-- R26: a break is reported when it begins. -/
theorem breakFound_begins {returned : Bool} (begins : r.receiver ≠ .breaking ∨ returned = true) :
    breakFound h returned s = lineEvent h .lineBreak (setReader h (remember .breaking r) s) := by
  have new : ¬ (r.receiver = .breaking ∧ returned = false) := by
    rcases begins with other | back
    · exact fun is => other is.1
    · simp [back]
  simp only [breakFound, at_h, if_neg new]

/-- R27: an event of the line is attached to the newest entry. -/
theorem lineEvent_attached (v : LineEvent) {older : List FifoEntry} {e : FifoEntry} (newest : r.fifo = older ++ [e]) :
    lineEvent h v s = setReader h { r with fifo := older ++ [{ e with events := e.events ++ [v] }] } s := by
  have attached : attachEvent v r = { r with fifo := older ++ [{ e with events := e.events ++ [v] }] } := by
    rw [attachEvent, newest, changeNewest_concat]
  simp only [lineEvent, at_h, attached]
  cases fifo : r.fifo with
  | nil => simp [newest] at fifo
  | cons a rest => rfl

/-- R27: at an empty FIFO the assembler takes it at once. -/
theorem lineEvent_taken (v : LineEvent) (empty : r.fifo = []) : lineEvent h v s = takeLineEvent h v s := by
  simp [lineEvent, at_h, empty]

/-- R27, R29: with no frame in assembly either, nothing changes. -/
theorem lineEvent_unmoved (v : LineEvent) (empty : r.fifo = []) (hunt : r.frame = none) : lineEvent h v s = s := by
  rw [lineEvent_taken at_h v empty]
  simp [takeLineEvent, at_h, hunt]

end

/-- The damage an event of the line does to a frame in assembly (2.3). -/
def eventDamage : LineEvent → Damage
  | .idle => .idle
  | .lineBreak => .lineBreak

/-- R29: it closes a frame in assembly. -/
theorem takeLineEvent_collect {h : HoseId} {s : State} {f : ReaderFrame} (v : LineEvent)
    (collect : (s.readers.get h).frame = some f) :
    takeLineEvent h v s = closeFrame h (v == .lineBreak) (mark (some (eventDamage v)) f) s := by
  simp only [takeLineEvent, collect]
  cases v <;> rfl

/-! ### Closed frames (R29 to R33) -/

theorem mark_eq (d : Option Damage) (f : ReaderFrame) : mark d f = { f with damage := f.damage.or d } := by
  obtain ⟨bytes, expected, damage⟩ := f
  cases damage <;> rfl

/-- A reader whose frame has been closed at instant `now`: HUNT, the silence timer afresh but at a break (R29, R32). -/
def closedReader (byBreak : Bool) (now : Nat) (r : Reader) : Reader :=
  { r with frame := none, silenceStart := if byBreak then r.silenceStart else now }

theorem closeFrame_eq (h : HoseId) (byBreak : Bool) (f : ReaderFrame) (s : State) : closeFrame h byBreak f s =
    match f.damage with
    | some d => damagedFrame h d (setReader h (closedReader byBreak s.timebase.now (s.readers.get h)) s)
    | none => soundFrame h f.bytes (setReader h (closedReader byBreak s.timebase.now (s.readers.get h)) s) := by
  cases d : f.damage <;> simp only [closeFrame, d] <;> rfl

/-- R31: a damaged frame is counted; up to the seventh of a run nothing is reported. -/
theorem damagedFrame_counted {h : HoseId} {s : State} (d : Damage) (short : (s.readers.get h).runCount < 7) :
    damagedFrame h d s = setReader h
      { s.readers.get h with
        damaged := min ((s.readers.get h).damaged + 1) 65535, runCount := (s.readers.get h).runCount + 1 } s :=
  if_pos (show (s.readers.get h).runCount + 1 < 8 by omega)

/-- R31: the eighth of a run is reported and starts the run afresh. -/
theorem damagedFrame_reported {h : HoseId} {s : State} (d : Damage) (long : 7 ≤ (s.readers.get h).runCount) :
    damagedFrame h d s = report (.reader h) .lineError h.number (damageCode d)
      (setReader h { s.readers.get h with damaged := min ((s.readers.get h).damaged + 1) 65535, runCount := 0 } s) :=
  if_neg (show ¬ (s.readers.get h).runCount + 1 < 8 by omega)

theorem soundFrame_rejected {h : HoseId} {s : State} {bytes : List Byte} (rejected : judgeFrame bytes = .rejected) :
    soundFrame h bytes s = setReader h
      { s.readers.get h with rejected := min ((s.readers.get h).rejected + 1) 65535 } s := by
  simp [soundFrame, rejected, satAdd, Config.countMax]

theorem soundFrame_good {h : HoseId} {s : State} {bytes : List Byte} (good : judgeFrame bytes ≠ .rejected) :
    soundFrame h bytes s = setReader h (trackPresence (judgeFrame bytes) s.timebase.count s.timebase.now
      { s.readers.get h with
        good := min ((s.readers.get h).good + 1) 65535, runCount := 0, condition := .live }) s := by
  unfold soundFrame
  cases content : judgeFrame bytes with
  | rejected => exact absurd content good
  | tag id q => rfl
  | empty => rfl

section
variable {h : HoseId} {s : State} {r : Reader} {f : ReaderFrame} (at_h : s.readers.get h = r) (byBreak : Bool)
include at_h

theorem closeFrame_counted {d : Damage} (damaged : f.damage = some d) (short : r.runCount < 7) :
    closeFrame h byBreak f s = setReader h
      { closedReader byBreak s.timebase.now r with
        damaged := min (r.damaged + 1) 65535, runCount := r.runCount + 1 } s := by
  subst at_h
  simp only [closeFrame_eq, damaged]
  rw [damagedFrame_counted d (by simpa [closedReader] using short)]
  simp [closedReader]

theorem closeFrame_reported {d : Damage} (damaged : f.damage = some d) (long : 7 ≤ r.runCount) :
    closeFrame h byBreak f s = report (.reader h) .lineError h.number (damageCode d)
      (setReader h
        { closedReader byBreak s.timebase.now r with damaged := min (r.damaged + 1) 65535, runCount := 0 } s) := by
  subst at_h
  simp only [closeFrame_eq, damaged]
  rw [damagedFrame_reported d (by simpa [closedReader] using long)]
  simp [closedReader]

theorem closeFrame_rejected (sound : f.damage = none) (rejected : judgeFrame f.bytes = .rejected) :
    closeFrame h byBreak f s = setReader h
      { closedReader byBreak s.timebase.now r with rejected := min (r.rejected + 1) 65535 } s := by
  subst at_h
  simp only [closeFrame_eq, sound]
  rw [soundFrame_rejected rejected]
  simp [closedReader]

theorem closeFrame_good (sound : f.damage = none) (good : judgeFrame f.bytes ≠ .rejected) :
    closeFrame h byBreak f s = setReader h
      (trackPresence (judgeFrame f.bytes) s.timebase.count s.timebase.now
        { closedReader byBreak s.timebase.now r with
          good := min (r.good + 1) 65535, runCount := 0, condition := .live }) s := by
  subst at_h
  simp only [closeFrame_eq, sound]
  rw [soundFrame_good good]
  simp [closedReader]

end

end Sys2Proof.Machine
end

section
/-! PROOFS. The statement on the line of a reader port: characters, breaks and idle events at the FIFO and at a frame in
assembly. -/

namespace Sys2Proof.Machine

/-- R29, R31: what event `v` of the line, with which the receiver comes to remember `line`, does at an empty FIFO with
frame `f` in assembly. -/
theorem fieldRow_lineEvent_closes {h : HoseId} {s : State} {r : Reader} {f : ReaderFrame} {act : State → State}
    (running : s.supply.power = .running) (empty : r.fifo = []) (collect : r.frame = some f) (v : LineEvent)
    (line : Receiver) (acts : act s = lineEvent h v (setReader h (remember line r) s)) {start : Nat}
    (starts : start = if v == .lineBreak then r.silenceStart else s.timebase.now) :
    (r.runCount < 7 → fieldRow act s = happens (setReader h
      { r with
        receiver := line, frame := none, silenceStart := start, damaged := min (r.damaged + 1) 65535
        runCount := r.runCount + 1 } s))
    ∧ (7 ≤ r.runCount → fieldRow act s = happens
      (report (.reader h) .lineError h.number (damageCode (f.damage.getD (eventDamage v)))
        (setReader h
          { r with
            receiver := line, frame := none, silenceStart := start, damaged := min (r.damaged + 1) 65535
            runCount := 0 } s))) := by
  subst starts
  have at_h : (setReader h (remember line r) s).readers.get h = remember line r := by simp
  have closes : fieldRow act s = happens
      (closeFrame h (v == .lineBreak) (mark (some (eventDamage v)) f) (setReader h (remember line r) s)) := by
    rw [fieldRow_running running, acts, lineEvent_taken at_h v empty,
      takeLineEvent_collect v (at_h.symm ▸ collect : _ = some f)]
  have marked : (mark (some (eventDamage v)) f).damage = some (f.damage.getD (eventDamage v)) := by
    rw [mark_eq]
    cases f.damage <;> rfl
  rw [closes]
  refine ⟨fun short => ?_, fun long => ?_⟩
  · rw [closeFrame_counted at_h _ marked short, setReader_setReader]
    rfl
  · rw [closeFrame_reported at_h _ marked long, setReader_setReader]
    rfl

/-- Settles O9: characters by the room in the FIFO; breaks and idle events by what the receiver remembers, then by the
FIFO and the frame in assembly. -/
theorem readerLineFollowsR27R31 : Obligations.ReaderLineFollowsR27R31 := by
  refine ⟨fun h s r running at_h => ?_, fun h s r f running at_h empty collect i kind start line which => ?_⟩
  · have gap : exec (.idleEvent h) s = happens (gapFound h s) := fieldRow_running running
    have held (returned) : exec (.lineBreak ⟨h, returned⟩) s = happens (breakFound h returned s) :=
      fieldRow_running running
    have remembers (line) : (setReader h (remember line r) s).readers.get h = remember line r := by simp
    refine ⟨fun data parity stop cond condIs => ?_, fun breaking => ?_, fun silent => ?_,
      fun older e newest => ⟨fun delivered => ?_, fun returned begins => ?_⟩,
      fun empty hunt => ⟨?_, fun returned begins => ?_⟩⟩
    · rw [← entryCondition_lineCondition] at condIs
      subst condIs
      have delivers : exec (.receiverCharacter h data ⟨parity, stop⟩) s = happens
          (setReader h (remember .delivered (receiveCharacter data (lineCondition data parity stop) r)) s) := by
        subst at_h
        exact fieldRow_running running
      refine ⟨fun room => ?_, fun older e full newest => ?_⟩
      · rw [delivers, receiveCharacter_room data _ room]
        rfl
      · rw [delivers, receiveCharacter_full data _ full newest]
        rfl
    · rw [held, breakFound_reported at_h breaking]
    · rw [gap, gapFound_unreported at_h silent]
      rfl
    · rw [gap, gapFound_delivered at_h delivered, lineEvent_attached (remembers .quiet) .idle newest,
        setReader_setReader]
      rfl
    · rw [held, breakFound_begins at_h begins, lineEvent_attached (remembers .breaking) .lineBreak newest,
        setReader_setReader]
      rfl
    · by_cases delivered : r.receiver = .delivered
      · rw [gap, gapFound_delivered at_h delivered, lineEvent_unmoved (remembers .quiet) .idle empty hunt]
        rfl
      · rw [gap, gapFound_unreported at_h delivered]
        rfl
    · rw [held, breakFound_begins at_h begins, lineEvent_unmoved (remembers .breaking) .lineBreak empty hunt]
      rfl
  · rcases which with ⟨rfl, delivered, rfl, rfl, rfl⟩ | ⟨rfl, rfl, rfl, returned, rfl, begins⟩
    · exact fieldRow_lineEvent_closes running empty collect .idle .quiet (gapFound_delivered at_h delivered) rfl
    · exact fieldRow_lineEvent_closes running empty collect .lineBreak .breaking (breakFound_begins at_h begins) rfl

end Sys2Proof.Machine
end

section
/-! PROOFS. The assembler entry by entry, what an undamaged frame holds, and the statement on the frames of a reader
port. -/

namespace Sys2Proof.Machine

/-! ### The assembler (R28) -/

/-- R28: the frame an entry starts in HUNT. -/
theorem startFrame_eq (e : FifoEntry) : startFrame e =
    if e.condition = .good ∧ 2 ≤ e.data.toNat ∧ e.data.toNat ≤ 30
      then { bytes := [e.data], expected := some e.data.toNat, damage := none }
      else { bytes := [e.data], expected := none, damage := some .length } := by
  simp only [startFrame, inRange_iff]

/-- The frame `f` with entry `e` appended (R28). -/
def appended (e : FifoEntry) (f : ReaderFrame) : ReaderFrame :=
  mark (entryDamage e.condition) { f with bytes := f.bytes ++ [e.data] }

theorem appended_eq (e : FifoEntry) (f : ReaderFrame) : appended e f =
    { f with bytes := f.bytes ++ [e.data], damage := f.damage.or (entryDamage e.condition) } := mark_eq ..

theorem appended_length (e : FifoEntry) (f : ReaderFrame) : (appended e f).bytes.length = f.bytes.length + 1 := by
  simp [appended_eq]

section
variable {h : HoseId} {s : State} (e : FifoEntry)

theorem takeEntry_hunt (hunt : (s.readers.get h).frame = none) : takeEntry h e s = putFrame h (startFrame e) s := by
  simp [takeEntry, hunt]

/-- R28: in a frame with an expected count, its last entry closes it. -/
theorem takeEntry_counted {f : ReaderFrame} {n : Nat} (collect : (s.readers.get h).frame = some f)
    (counted : f.expected = some n) :
    takeEntry h e s =
      if f.bytes.length = n then closeFrame h false (appended e f) s else putFrame h (appended e f) s := by
  obtain ⟨bytes, expected, damage⟩ := f
  obtain rfl : expected = some n := counted
  simp only [takeEntry, collect]
  refine if_congr ?_ rfl rfl
  change (appended e ⟨bytes, some n, damage⟩).bytes.length = n + 1 ↔ _
  rw [appended_length, Nat.add_right_cancel_iff]

/-- R28: a frame without a count is closed at 31 bytes, the entry starting the next. -/
theorem takeEntry_uncounted {f : ReaderFrame} (collect : (s.readers.get h).frame = some f)
    (uncounted : f.expected = none) :
    takeEntry h e s =
      if f.bytes.length < 31 then putFrame h (appended e f) s
      else putFrame h (startFrame e) (closeFrame h false f s) := by
  obtain ⟨bytes, expected, damage⟩ := f
  obtain rfl : expected = none := uncounted
  simp only [takeEntry, collect]
  rfl

end

theorem handing_iff (r : Reader) : handing r = true ↔ r.events ≠ [] := by simp [handing]

/-- 2.2: nothing leaves the FIFO while the port hands events over, or where it is empty. -/
theorem takeFromFifo_rests {h : HoseId} {s : State}
    (rests : (s.readers.get h).events ≠ [] ∨ (s.readers.get h).fifo = []) : takeFromFifo h s = s := by
  unfold takeFromFifo
  by_cases hands : handing (s.readers.get h) = true
  · exact if_pos hands
  · simp [hands, rests.resolve_left (mt (handing_iff _).2 hands)]

/-- R28: the oldest entry goes to the assembler, its events after it. -/
theorem takeFromFifo_takes {h : HoseId} {s : State} {r : Reader} {e : FifoEntry} {rest : List FifoEntry}
    (at_h : s.readers.get h = r) (free : r.events = []) (oldest : r.fifo = e :: rest) :
    takeFromFifo h s = e.events.foldl (fun u v => takeLineEvent h v u)
      (takeEntry h e (setReader h { r with fifo := rest } s)) := by
  simp [takeFromFifo, handing, at_h, free, oldest]

/-! ### What an undamaged frame holds (R30) -/

/-- R30, step 2: a frame whose last byte is the check of those before it is judged by its content. -/
theorem judgeFrame_checked (body : List Byte) : judgeFrame (body ++ [crc8 body]) = frameContent body := by
  simp [judgeFrame]

theorem judgeFrame_unchecked {body : List Byte} {check : Byte} (differs : crc8 body ≠ check) :
    judgeFrame (body ++ [check]) = .rejected := by
  simp [judgeFrame, differs]

/-- A tag ID reads as it was sent (R194). -/
theorem bigEndian_tagBytes {tag : Nat} (fits : tag < 2 ^ 48) : bigEndian (tagBytes tag) = tag := by
  simp [bigEndian, tagBytes, le]
  omega

/-- The content of a frame of kind TAG (R30, step 3). -/
theorem frameContent_tag {tag q : Nat} (tagFits : tag < 2 ^ 48) (qFits : q < 256) :
    frameContent (9 :: 1 :: tagBytes tag ++ u8 q) = if q ≤ 100 ∧ tag ≠ 0 then .tag tag q else .rejected := by
  have quality : (BitVec.ofNat 8 q).toNat = q := by simp [Nat.mod_eq_of_lt qFits]
  have sent : frameContent (9 :: 1 :: tagBytes tag ++ u8 q) =
      if (9 : Byte).toNat = 9 ∧ (1 : Byte).toNat = 1 ∧ (BitVec.ofNat 8 q).toNat ≤ 100 ∧ bigEndian (tagBytes tag) ≠ 0
        then .tag (bigEndian (tagBytes tag)) (BitVec.ofNat 8 q).toNat else .rejected := rfl
  rw [sent, quality, bigEndian_tagBytes tagFits]
  simp

/-- A frame of kind TAG with a quality above 100 is rejected, whatever its tag. -/
theorem frameContent_quality {tag q : Nat} (above : 100 < q) (qFits : q < 256) :
    frameContent (9 :: 1 :: tagBytes tag ++ u8 q) = .rejected := by
  have quality : (BitVec.ofNat 8 q).toNat = q := by simp [Nat.mod_eq_of_lt qFits]
  refine if_neg fun ⟨_, _, le, _⟩ => ?_
  rw [quality] at le
  omega

/-! ### The statement -/

/-- R28 of an entry at a port whose assembler takes entries: `next` is the frame in assembly with the entry appended. -/
theorem takeEntry_of_case {h : HoseId} {s t : State} {e : FifoEntry} {next : ReaderFrame}
    (nextIs : ∀ f, (s.readers.get h).frame = some f → next = appended e f)
    (which : ((s.readers.get h).frame = none ∧ t = putFrame h (startFrame e) s)
      ∨ (∃ f n, (s.readers.get h).frame = some f ∧ f.expected = some n ∧ f.bytes.length ≠ n ∧ t = putFrame h next s)
      ∨ (∃ f n, (s.readers.get h).frame = some f ∧ f.expected = some n ∧ f.bytes.length = n
        ∧ t = closeFrame h false next s)
      ∨ (∃ f, (s.readers.get h).frame = some f ∧ f.expected = none ∧ f.bytes.length < 31 ∧ t = putFrame h next s)
      ∨ (∃ f, (s.readers.get h).frame = some f ∧ f.expected = none ∧ 31 ≤ f.bytes.length
        ∧ t = putFrame h (startFrame e) (closeFrame h false f s))) :
    takeEntry h e s = t := by
  rcases which with ⟨hunt, rfl⟩ | ⟨f, n, collect, counted, short, rfl⟩ | ⟨f, n, collect, counted, last, rfl⟩
    | ⟨f, collect, uncounted, short, rfl⟩ | ⟨f, collect, uncounted, long, rfl⟩
  · exact takeEntry_hunt e hunt
  · rw [takeEntry_counted e collect counted, if_neg short, nextIs f collect]
  · rw [takeEntry_counted e collect counted, if_pos last, nextIs f collect]
  · rw [takeEntry_uncounted e collect uncounted, if_pos short, nextIs f collect]
  · rw [takeEntry_uncounted e collect uncounted, if_neg (Nat.not_lt.2 long)]

/-- Settles O10: the assembler by its state and the frame it holds, a closed frame by its damage and content, and the
content by the bytes sent. -/
theorem readerFramesFollowR28R30 : Obligations.ReaderFramesFollowR28R30 := by
  refine ⟨fun h s r e rest running at_h free oldest first next t firstIs nextIs which => ?_,
    fun h s running rests => ?_, fun h s r closed f at_h closedIs => ⟨fun sound rejected => ?_,
      fun content sound contentIs good => ?_, fun d damaged => ⟨fun short => ?_, fun long => ?_⟩⟩,
    fun tag q low high qLe => ?_, ?_, fun body check => judgeFrame_unchecked, fun q low high tag => ?_⟩
  · have after : takeEntry h e (setReader h { r with fifo := rest } s) = t := by
      have at_rest : (setReader h { r with fifo := rest } s).readers.get h = { r with fifo := rest } := by simp
      have placed (f : ReaderFrame) : putFrame h f (setReader h { r with fifo := rest } s) =
          setReader h { r with fifo := rest, frame := some f } s := by simp [putFrame]
      rw [← startFrame_eq] at firstIs
      subst firstIs
      refine takeEntry_of_case (next := next) (fun f collect => ?_) ?_
      · rw [at_rest] at collect
        rw [nextIs f collect, appended_eq]
        cases e.condition <;> rfl
      · simp only [at_rest, placed]
        exact which
    rw [exec_fifoEntryTaken, execFifoEntryTaken, fieldRow_running running, takeFromFifo_takes at_h free oldest, after]
  · rw [exec_fifoEntryTaken, execFifoEntryTaken, fieldRow_running running, takeFromFifo_rests rests]
  · rw [closeFrame_rejected at_h false sound rejected, closedIs]
    rfl
  · rw [closeFrame_good at_h false sound (contentIs ▸ good), contentIs, closedIs]
    rfl
  · rw [closeFrame_counted at_h false damaged short, closedIs]
    rfl
  · rw [closeFrame_reported at_h false damaged long, closedIs]
    rfl
  · rw [judgeFrame_checked, frameContent_tag high (by omega), if_pos ⟨qLe, by omega⟩]
  · exact judgeFrame_checked [2, 2]
  · rw [judgeFrame_checked, frameContent_quality low high]

end Sys2Proof.Machine
end

section
/-! PROOFS. Presence tracking, the silence timer and the tag-loss grace: each by the tag present, then the statement. -/

namespace Sys2Proof.Machine

/-! ### Presence tracking (R33 to R36) -/

section
variable {r : Reader} {tag : Nat} (quality clock now : Nat)

/-- R36: a read of the present tag. -/
theorem qualifyingRead_same {p : Presence} (present : r.present = some p) (same : p.tag = tag) :
    qualifyingRead tag quality clock now r =
      { r with
        present := some { p with quality := quality, lastSeen := clock, expiry := now + r.grace }
        candidate := none } := by
  simp [qualifyingRead, present, same]

/-- R34: a first read of another tag. -/
theorem qualifyingRead_first (other : r.present.map Presence.tag ≠ some tag) (first : r.candidate ≠ some tag) :
    qualifyingRead tag quality clock now r = { r with candidate := some tag } := by
  unfold qualifyingRead
  cases present : r.present with
  | none => exact if_neg first
  | some p =>
    have ne : p.tag ≠ tag := fun same => other (by simp [present, same])
    exact (if_neg ne).trans (if_neg first)

/-- R34: the second read in a run with no tag present. -/
theorem qualifyingRead_arrives (absent : r.present = none) (second : r.candidate = some tag) :
    qualifyingRead tag quality clock now r =
      raiseTagEvent (.present tag) (becomePresent tag quality clock now r) := by
  simp [qualifyingRead, absent, second]

/-- R36: the second read in a run of another tag. -/
theorem qualifyingRead_changes {p : Presence} (present : r.present = some p) (other : p.tag ≠ tag)
    (second : r.candidate = some tag) :
    qualifyingRead tag quality clock now r =
      raiseTagEvent (.changed p.tag tag) (becomePresent tag quality clock now r) := by
  simp [qualifyingRead, present, other, second]

/-- R33: which reads qualify. -/
theorem trackPresence_tag : trackPresence (.tag tag quality) clock now r =
    if r.minQuality ≤ quality then qualifyingRead tag quality clock now r else { r with candidate := none } := rfl

end

/-- R35: a port that hands nothing over raises tag-lost for the tag it had. -/
theorem loseTag_eq {r : Reader} (free : r.events = []) :
    loseTag r = { r with present := none, events := r.present.toList.map (fun p => TagEvent.lost p.tag) } := by
  obtain ⟨_, _, _, _, _, _, _, _, _, present, _, _, _, _, _, events⟩ := r
  obtain rfl : events = [] := free
  cases present <;> rfl

/-! ### Expiries (R32, R35) -/

section
variable {h : HoseId} {s : State} {r : Reader} (at_h : s.readers.get h = r)
include at_h

/-- 2.2: both expiries are held while the port hands events over. -/
theorem expiries_held (hands : r.events ≠ []) : silenceExpires h s = s ∧ graceExpires h s = s := by
  subst at_h
  exact ⟨if_pos ((handing_iff _).2 hands), if_pos ((handing_iff _).2 hands)⟩

/-- R32: the expiry of the silence timer at a port that hands nothing over; the timer starts again at the instant
reached (notes/assumptions/19.md and 22.md). -/
theorem silenceExpires_free (free : r.events = []) {reached : State}
    (reachedIs : reached = reachInstant (r.silenceStart + 5000) s) :
    silenceExpires h s =
      if r.condition = .absent then setReader h { r with silenceStart := reached.timebase.now } reached
      else
        report (.reader h) .readerSilent h.number (if r.present.isSome then 1 else 0)
          (setReader h
            { r with
              condition := .absent, candidate := none, present := none, silenceStart := reached.timebase.now
              events := r.present.toList.map (fun p => TagEvent.lost p.tag) } reached) := by
  subst reachedIs
  have taken : silenceExpires h s = becomeSilent h s := if_neg (by simp [handing, at_h, free])
  have at_expiry : (reachInstant (r.silenceStart + 5000) s).readers.get h = r := at_h
  have lost := loseTag_eq (r := { r with
    silenceStart := instant (reachInstant (r.silenceStart + 5000) s), condition := .absent, candidate := none }) free
  rw [taken]
  unfold becomeSilent
  simp only [at_h, Config.silenceTime, at_expiry, lost]
  cases r.condition <;> rfl

/-- R35: the expiry of the grace at a port that hands nothing over. -/
theorem graceExpires_present {p : Presence} (free : r.events = []) (present : r.present = some p) :
    graceExpires h s = setReader h { r with present := none, events := [.lost p.tag] } (reachInstant p.expiry s) := by
  have taken : graceExpires h s = graceRunsOut h s := if_neg (by simp [handing, at_h, free])
  rw [taken]
  simp [graceRunsOut, at_h, present, loseTag_eq free]

/-- R35: without a present tag no grace runs. -/
theorem graceExpires_none (absent : r.present = none) : graceExpires h s = s := by
  simp [graceExpires, graceRunsOut, at_h, absent]

end

/-- Settles O11: a good frame by the tag it names and the tag present; an expiry by whether the port hands events over. -/
theorem presenceFollowsR32R36 : Obligations.PresenceFollowsR32R36 := by
  refine ⟨fun r c n x q => ⟨rfl, fun low => if_neg (Nat.not_le.2 low), fun qualifies => ?_⟩,
    fun h s r running at_h => ?_⟩
  · rw [trackPresence_tag, if_pos qualifies]
    exact ⟨fun ⟨other, first⟩ => qualifyingRead_first q c n other first,
      fun ⟨absent, second⟩ => qualifyingRead_arrives q c n absent second,
      fun p present other second => qualifyingRead_changes q c n present other second,
      fun p present same => qualifyingRead_same q c n present same⟩
  · have silence : exec (.silenceTimerExpiry h) s = happens (silenceExpires h s) := fieldRow_running running
    have grace : exec (.graceExpiry h) s = happens (graceExpires h s) := fieldRow_running running
    rw [silence, grace]
    refine ⟨fun hands => ?_, fun start lost reached free startIs lostIs reachedIs => ?_, fun free p present => ?_,
      fun absent => ?_⟩
    · obtain ⟨silenceHeld, graceHeld⟩ := expiries_held at_h hands
      exact ⟨congrArg happens silenceHeld, congrArg happens graceHeld⟩
    · have reachedNow : start = reached.timebase.now := by rw [startIs, reachedIs, reachInstant_now]
      subst reachedIs
      rw [silenceExpires_free at_h free rfl, reachedNow, lostIs]
      exact ⟨fun absent => by rw [if_pos absent]; rfl, fun heard => by rw [if_neg heard]; rfl⟩
    · rw [graceExpires_present at_h free present]
      rfl
    · rw [graceExpires_none at_h absent]

end Sys2Proof.Machine
end

section
/-! PROOFS. The tag events at a Hose Controller: what taking one leaves, the pair it completes, what each event does by the
state of the hose, and the statement. -/

namespace Sys2Proof.Machine

/-! ### Taking an event (R37) -/

section
variable (id : HoseId) (v : TagEvent) (s : State)

/-- Taking an event leaves the hose as it is but for its pair. -/
theorem takeTagEvent_hose : (takeTagEvent id v s).hoses.get id =
    { s.hoses.get id with paired := pairAfter v (s.hoses.get id).paired } := by
  obtain ⟨events, taken⟩ := takeTagEvent_eq id v s
  simp [taken, setPaired_eq]

theorem takeTagEvent_presentTag : presentTag id (takeTagEvent id v s) = presentTag id s := by
  obtain ⟨events, taken⟩ := takeTagEvent_eq id v s
  simp [taken, presentTag, setPaired_eq]

theorem takeTagEvent_field : (takeTagEvent id v s).field = s.field := by
  obtain ⟨events, taken⟩ := takeTagEvent_eq id v s
  simp [taken, setPaired_eq]

end

/-! ### The pair of a tag event (R79) -/

/-- A pair that has not started its authorisation starts it. -/
theorem pairByTag_starts {id : HoseId} {tag : Nat} {s : State} (off : s.field.levels.offHook.get id = true)
    (present : presentTag id s = some tag) (new : (s.hoses.get id).paired ≠ some tag)
    (starts : startsFrom.contains (s.hoses.get id).state = true) : pairByTag id s = authorisePair id tag s := by
  rw [pairByTag, if_pos ⟨off, present.symm ▸ new⟩, startAuthorisation_starts present starts]

/-- A nozzle on its hook, no tag present, a pair that has started its authorisation, or a state that starts none. -/
theorem pairByTag_rests {id : HoseId} {s : State}
    (rests : s.field.levels.offHook.get id = false ∨ presentTag id s = none
      ∨ (s.hoses.get id).paired = presentTag id s ∨ startsFrom.contains (s.hoses.get id).state = false) :
    pairByTag id s = s := by
  unfold pairByTag
  split_ifs with completes
  · refine startAuthorisation_rests ?_
    rcases rests with on | none | same | state
    · simp [on] at completes
    · exact .inl none
    · exact absurd same completes.2
    · exact .inr state
  · rfl

/-! ### What each event does, by the state of the hose (R79, R93, R114, R117 to R119) -/

/-- The hose's session is tag-initiated and `tag` is its session tag. -/
def ownTag (h : Hose) (tag : Nat) : Bool := tagInitiated h && sessionTag h == some tag

section
variable {h : Hose} {x : Session} (session : h.session = some x)
include session

theorem tagInitiated_eq : tagInitiated h = (x.kind != .manual) := by simp [tagInitiated, session]

theorem sessionTag_of_initiated (initiated : x.kind ≠ .manual) : sessionTag h = x.tag := by
  simp [sessionTag, session, initiated]

theorem ownTag_iff {tag : Nat} : ownTag h tag = true ↔ x.kind ≠ .manual ∧ x.tag = some tag := by
  rw [ownTag, tagInitiated_eq session]
  by_cases manual : x.kind = .manual
  · simp [manual]
  · simp [manual, sessionTag_of_initiated session manual]

end

section
variable {id : HoseId} {tag : Nat} {s : State} {st : HoseState} (at_id : (s.hoses.get id).state = st)
include at_id

theorem tagPresentActs_pairs (notPaused : st ≠ .paused) : tagPresentActs id tag s = pairByTag id s := by
  simp only [tagPresentActs, at_id]

/-- tag-present where no authorisation starts: nothing, or at a pause the session's own tag, or a MANUAL session. -/
theorem tagPresentActs_rests (startsNone : startsFrom.contains st = false)
    (keeps : st ≠ .paused ∨ tagInitiated (s.hoses.get id) = false ∨ sessionTag (s.hoses.get id) = some tag) :
    tagPresentActs id tag s = s := by
  by_cases paused : st = .paused
  · subst paused
    simp only [tagPresentActs, at_id]
    refine if_neg ?_
    rcases keeps with notPaused | manual | own
    · exact absurd rfl notPaused
    · simp [manual]
    · simp [own]
  · rw [tagPresentActs_pairs at_id paused]
    exact pairByTag_rests (.inr (.inr (.inr (at_id.symm ▸ startsNone))))

/-- R118: another tag at a pause. -/
theorem tagPresentActs_stops (paused : st = .paused) (initiated : tagInitiated (s.hoses.get id) = true)
    (other : sessionTag (s.hoses.get id) ≠ some tag) :
    tagPresentActs id tag s = enterStopping id .tagChanged false s := by
  subst paused
  simp only [tagPresentActs, at_id]
  exact if_pos (by simp [initiated, other])

theorem tagLostActs_referred (referred : st = .referred) : tagLostActs id tag s = endReferred id .abandoned s := by
  subst referred
  simp only [tagLostActs, at_id]

/-- tag-lost outside the states it acts in, or of another tag than the session's. -/
theorem tagLostActs_rests (notReferred : st ≠ .referred)
    (keeps : [HoseState.ready, .flowing, .slowing].contains st = false ∨ ownTag (s.hoses.get id) tag = false) :
    tagLostActs id tag s = s := by
  have other (acts : [HoseState.ready, .flowing, .slowing].contains st = true) :
      ¬ (tagInitiated (s.hoses.get id) && sessionTag (s.hoses.get id) == some tag) = true :=
    Bool.eq_false_iff.1 (keeps.resolve_left (by rw [acts]; decide))
  simp only [tagLostActs, at_id]
  cases st with
  | referred => exact absurd rfl notReferred
  | ready => exact if_neg (other rfl)
  | flowing => exact if_neg (other rfl)
  | slowing => exact if_neg (other rfl)
  | _ => rfl

theorem tagLostActs_ready (ready : st = .ready) (own : ownTag (s.hoses.get id) tag = true) :
    tagLostActs id tag s = closeSession id (some .abandoned) s := by
  subst ready
  simp only [tagLostActs, at_id]
  exact if_pos own

theorem tagLostActs_delivering (delivering : st = .flowing ∨ st = .slowing)
    (own : ownTag (s.hoses.get id) tag = true) : tagLostActs id tag s = pause id .tagLost s := by
  rcases delivering with rfl | rfl <;> simp only [tagLostActs, at_id] <;> exact if_pos own

theorem tagChangedActs_pairs (starts : startsFrom.contains st = true) : tagChangedActs id s = pairByTag id s := by
  simp only [tagChangedActs, at_id]
  cases st <;> first | rfl | cases starts

/-- tag-changed outside the states it acts in, or at a MANUAL session. -/
theorem tagChangedActs_rests (startsNone : startsFrom.contains st = false) (notReferred : st ≠ .referred)
    (keeps : [HoseState.ready, .flowing, .slowing, .paused].contains st = false
      ∨ tagInitiated (s.hoses.get id) = false) : tagChangedActs id s = s := by
  have manual (acts : [HoseState.ready, .flowing, .slowing, .paused].contains st = true) :
      ¬ tagInitiated (s.hoses.get id) = true := Bool.eq_false_iff.1 (keeps.resolve_left (by rw [acts]; decide))
  have unpaired : pairByTag id s = s := pairByTag_rests (.inr (.inr (.inr (at_id.symm ▸ startsNone))))
  simp only [tagChangedActs, at_id]
  cases st with
  | referred => exact absurd rfl notReferred
  | ready => exact if_neg (manual rfl)
  | flowing => exact if_neg (manual rfl)
  | slowing => exact if_neg (manual rfl)
  | paused => exact if_neg (manual rfl)
  | _ => exact unpaired

theorem tagChangedActs_referred (referred : st = .referred) :
    tagChangedActs id s = pairByTag id (endReferred id .abandoned s) := by
  subst referred
  simp only [tagChangedActs, at_id]

theorem tagChangedActs_ready (ready : st = .ready) (initiated : tagInitiated (s.hoses.get id) = true) :
    tagChangedActs id s = pairByTag id (closeSession id (some .tagChanged) s) := by
  subst ready
  simp only [tagChangedActs, at_id]
  exact if_pos initiated

/-- R119: tag-changed at a session that delivers or pauses. -/
theorem tagChangedActs_stops (delivers : [HoseState.flowing, .slowing, .paused].contains st = true)
    (initiated : tagInitiated (s.hoses.get id) = true) :
    tagChangedActs id s = enterStopping id .tagChanged false s := by
  simp only [tagChangedActs, at_id]
  cases st with
  | flowing => exact if_pos initiated
  | slowing => exact if_pos initiated
  | paused => exact if_pos initiated
  | _ => cases delivers

end

/-! ### An event taken, then acted on -/

section
variable {id : HoseId} {h : Hose} {s : State} (at_h : s.hoses.get id = h) (v : TagEvent)

section
include at_h

theorem takeTagEvent_hose_eq :
    (takeTagEvent id v s).hoses.get id = { h with paired := pairAfter v h.paired } := at_h ▸ takeTagEvent_hose id v s

theorem takeTagEvent_state : ((takeTagEvent id v s).hoses.get id).state = h.state := by rw [takeTagEvent_hose_eq at_h]

theorem takeTagEvent_initiated : tagInitiated ((takeTagEvent id v s).hoses.get id) = tagInitiated h := by
  rw [takeTagEvent_hose_eq at_h]
  rfl

theorem takeTagEvent_ownTag (tag : Nat) : ownTag ((takeTagEvent id v s).hoses.get id) tag = ownTag h tag := by
  rw [takeTagEvent_hose_eq at_h]
  rfl

theorem takeTagEvent_sessionTag : sessionTag ((takeTagEvent id v s).hoses.get id) = sessionTag h := by
  rw [takeTagEvent_hose_eq at_h]
  rfl

/-- R79: the event completes the pair of the present tag, which the event has not left standing. -/
theorem pairByTag_take_starts {p : Presence} (at_reader : (s.readers.get id).present = some p)
    (off : s.field.levels.offHook.get id = true) (starts : startsFrom.contains h.state = true)
    (new : pairAfter v h.paired ≠ some p.tag) :
    pairByTag id (takeTagEvent id v s) = authorisePair id p.tag (takeTagEvent id v s) := by
  refine pairByTag_starts ?_ ?_ ?_ ?_
  · rw [takeTagEvent_field, off]
  · rw [takeTagEvent_presentTag, presentTag, at_reader, Option.map_some]
  · rwa [takeTagEvent_hose_eq at_h]
  · rwa [takeTagEvent_state at_h]

/-- R79: the pair of the present tag still stands. -/
theorem pairByTag_take_stands {p : Presence} (at_reader : (s.readers.get id).present = some p)
    (stands : pairAfter v h.paired = some p.tag) : pairByTag id (takeTagEvent id v s) = takeTagEvent id v s := by
  refine pairByTag_rests (.inr (.inr (.inl ?_)))
  rw [takeTagEvent_hose_eq at_h, takeTagEvent_presentTag, presentTag, at_reader, Option.map_some]
  exact stands

/-- A hose in STOPPING, in a proving state or with a MANUAL session ignores all three events. -/
theorem tagEvents_ignored (startsNone : startsFrom.contains h.state = false) (notReferred : h.state ≠ .referred)
    (ignores : [HoseState.ready, .flowing, .slowing, .paused].contains h.state = false ∨ tagInitiated h = false)
    (tag new : Nat) :
    tagPresentActs id tag (takeTagEvent id (.present tag) s) = takeTagEvent id (.present tag) s
    ∧ tagLostActs id tag (takeTagEvent id (.lost tag) s) = takeTagEvent id (.lost tag) s
    ∧ tagChangedActs id (takeTagEvent id (.changed tag new) s) = takeTagEvent id (.changed tag new) s := by
  have state (v) := takeTagEvent_state (s := s) at_h v
  refine ⟨tagPresentActs_rests (state _) startsNone ?_, tagLostActs_rests (state _) notReferred ?_,
    tagChangedActs_rests (state _) startsNone notReferred ?_⟩
  · rw [takeTagEvent_initiated at_h]
    rcases ignores with closed | manual
    · exact .inl fun is => by simp [is] at closed
    · exact .inr (.inl manual)
  · rw [takeTagEvent_ownTag at_h]
    rcases ignores with closed | manual
    · refine .inl ?_
      revert closed
      cases h.state <;> decide
    · exact .inr (by simp [ownTag, manual])
  · rwa [takeTagEvent_initiated at_h]

end

/-- R79: without a tag present, or with the nozzle on its hook, no pair is complete. -/
theorem pairByTag_take_incomplete
    (incomplete : (s.readers.get id).present = none ∨ s.field.levels.offHook.get id = false) :
    pairByTag id (takeTagEvent id v s) = takeTagEvent id v s := by
  refine pairByTag_rests ?_
  rw [takeTagEvent_field, takeTagEvent_presentTag]
  rcases incomplete with absent | on
  · exact .inr (.inl (by simp [presentTag, absent]))
  · exact .inl on

/-- R79: tag-changed leaves no pair but the new tag's. -/
theorem pairAfter_changed_ne {pair : Option Nat} {present old new : Nat} (fresh : pair ≠ some present ∨ present ≠ new) :
    pairAfter (.changed old new) pair ≠ some present := by
  intro stands
  simp only [pairAfter] at stands
  split_ifs at stands with isNew
  rcases fresh with other | other
  · exact other stands
  · exact other (Option.some.inj (stands.symm.trans isNew))

end

/-! ### The statement -/

/-- Settles O34, by the state of the hose: the event is taken, then acts as that state lets it. -/
theorem tagEventsFollowR79R119 : Obligations.TagEventsFollowR79R119 := by
  intro id tag new h s taken marked running at_h takenIs markedIs
  have takenEq (v) : taken v = takeTagEvent id v s := by
    rw [takenIs v _ rfl]
    subst at_h
    cases v <;> rfl
  have markedEq (t u) : marked t u = setPaired id (some t) u := markedIs t u
  have present : exec (.tagPresent id tag) s = happens (tagPresentActs id tag (takeTagEvent id (.present tag) s)) :=
    fieldRow_running running
  have lost : exec (.tagLost id tag) s = happens (tagLostActs id tag (takeTagEvent id (.lost tag) s)) :=
    fieldRow_running running
  have changed : exec (.tagChanged id tag new) s =
      happens (tagChangedActs id (takeTagEvent id (.changed tag new) s)) := fieldRow_running running
  have state (v) := takeTagEvent_state (s := s) at_h v
  simp only [present, lost, changed, takenEq, markedEq]
  refine ⟨fun starts => ?_, fun referred => ?_, fun proving => ?_, fun x session isOpen => ?_⟩
  · have quiet : h.state ≠ .paused ∧ h.state ≠ .referred
        ∧ [HoseState.ready, .flowing, .slowing].contains h.state = false := by
      revert starts
      cases h.state <;> decide
    obtain ⟨notPaused, notReferred, notOpen⟩ := quiet
    rw [tagPresentActs_pairs (state _) notPaused, tagChangedActs_pairs (state _) starts,
      tagLostActs_rests (state _) notReferred (.inl notOpen)]
    refine ⟨fun p at_reader off => ⟨fun fresh => ?_, fun same => ?_, fun fresh => ?_, fun same isNew => ?_⟩,
      fun incomplete => ⟨?_, ?_⟩, rfl⟩
    · rw [pairByTag_take_starts at_h (.present tag) at_reader off starts fresh]
      rfl
    · rw [pairByTag_take_stands at_h (.present tag) at_reader same]
    · rw [pairByTag_take_starts at_h _ at_reader off starts (pairAfter_changed_ne fresh)]
      rfl
    · rw [pairByTag_take_stands at_h _ at_reader (by simp [pairAfter, same, isNew])]
    · rw [pairByTag_take_incomplete _ incomplete]
    · rw [pairByTag_take_incomplete _ incomplete]
  · rw [tagLostActs_referred (state _) referred, tagChangedActs_referred (state _) referred,
      tagPresentActs_rests (state _) (by rw [referred]; decide) (.inl (by rw [referred]; decide))]
    exact ⟨rfl, rfl, rfl⟩
  · have quiet : startsFrom.contains h.state = false ∧ h.state ≠ .referred
        ∧ [HoseState.ready, .flowing, .slowing, .paused].contains h.state = false := by
      revert proving
      cases h.state <;> decide
    obtain ⟨startsNone, notReferred, notOpen⟩ := quiet
    obtain ⟨onPresent, onLost, onChanged⟩ := tagEvents_ignored at_h startsNone notReferred (.inl notOpen) tag new
    rw [onPresent, onLost, onChanged]
    exact ⟨rfl, rfl, rfl⟩
  · have quiet : startsFrom.contains h.state = false ∧ h.state ≠ .referred := by
      revert isOpen
      cases h.state <;> decide
    obtain ⟨startsNone, notReferred⟩ := quiet
    refine ⟨fun deaf => ?_, fun notManual => ?_⟩
    · have ignores : [HoseState.ready, .flowing, .slowing, .paused].contains h.state = false
          ∨ tagInitiated h = false := by
        rcases deaf with manual | stopping
        · exact .inr (by simp [tagInitiated_eq session, manual])
        · exact .inl (by rw [stopping]; decide)
      obtain ⟨onPresent, onLost, onChanged⟩ := tagEvents_ignored at_h startsNone notReferred ignores tag new
      rw [onPresent, onLost, onChanged]
      exact ⟨rfl, rfl, rfl⟩
    · have initiated (v) : tagInitiated ((takeTagEvent id v s).hoses.get id) = true := by
        simp [takeTagEvent_initiated at_h, tagInitiated_eq session, notManual]
      have own (v) (isOwn : x.tag = some tag) : ownTag ((takeTagEvent id v s).hoses.get id) tag = true := by
        rw [takeTagEvent_ownTag at_h, ownTag_iff session]
        exact ⟨notManual, isOwn⟩
      have tagIs (v) : sessionTag ((takeTagEvent id v s).hoses.get id) = x.tag :=
        (takeTagEvent_sessionTag at_h v).trans (sessionTag_of_initiated session notManual)
      refine ⟨fun ready isOwn => ?_, fun unpaused => ?_, fun paused => ?_, fun delivering isOwn => ?_,
        fun other => ?_, fun delivers => ?_, fun ready => ?_, fun paused => ?_⟩
      · rw [tagLostActs_ready (state _) ready (own _ isOwn)]
      · rw [tagPresentActs_rests (state _) startsNone (.inl fun is => by simp [is] at unpaused)]
      · rw [tagLostActs_rests (state _) notReferred (.inl (by rw [paused]; decide))]
      · rw [tagLostActs_delivering (state _) delivering (own _ isOwn)]
      · refine congrArg happens (tagLostActs_rests (state _) notReferred (.inr (Bool.eq_false_iff.2 fun is => ?_)))
        rw [takeTagEvent_ownTag at_h] at is
        exact other ((ownTag_iff session).1 is).2
      · rw [tagChangedActs_stops (state _) delivers (initiated _)]
      · rw [tagChangedActs_ready (state _) ready (initiated _)]
      · split_ifs with isOwn
        · rw [tagPresentActs_rests (state _) startsNone (.inr (.inr ((tagIs _).trans isOwn)))]
        · rw [tagPresentActs_stops (state _) paused (initiated _) (by rwa [tagIs])]

end Sys2Proof.Machine
end

section
/-! PROOFS. The commands of the account table and the price table: their look-up of a trusted record, their checks as the
Booleans the statements write for them, and the statements settled. -/

namespace Sys2Proof.Machine

/-! ### Looking an account record up (R58) -/

theorem verifyAccount_agrees {slot : Nat} {a : AccountRecord} (s : State) (h : a.checkWord = accountCheck a) :
    verifyAccount slot a s = (true, s) := by simp [verifyAccount, h]

/-- An OPEN or STOPPED record that fails is quarantined and reported. -/
theorem verifyAccount_quarantines {slot : Nat} {a : AccountRecord} (s : State) (differs : a.checkWord ≠ accountCheck a)
    (live : a.state ≠ .quarantined) : verifyAccount slot a s = (false, corruptAccount slot a s) := by
  cases state : a.state with
  | quarantined => exact absurd state live
  | opened => simp [verifyAccount, differs, state, corruptAccount, putAccount]
  | stopped => simp [verifyAccount, differs, state, corruptAccount, putAccount]

/-- The reply of a command that acts by `act` on a trusted record of a slot: NO_RECORD of a FREE slot, CORRUPT of a
QUARANTINED record and of one that fails verification (R48, R53 to R55). -/
def trustedReply (slot : Nat) (act : AccountRecord → State → Reply) (s : State) : Reply :=
  match accountAt slot s with
  | none => answer .noRecord s
  | some a => withTrusted slot a (act a) s

section
variable {slot : Nat} {a : AccountRecord} {s : State} {act : AccountRecord → State → Reply}

theorem trustedReply_free (free : tableGet s.accounts slot = none) :
    trustedReply slot act s = answer .noRecord s := by
  simp [trustedReply, accountAt, free]

theorem trustedReply_quarantined (found : tableGet s.accounts slot = some a) (quarantined : a.state = .quarantined) :
    trustedReply slot act s = answer .corrupt s := by
  simp [trustedReply, accountAt, found, withTrusted, quarantined]

theorem trustedReply_fails (found : tableGet s.accounts slot = some a) (live : a.state ≠ .quarantined)
    (differs : a.checkWord ≠ accountCheck a) :
    trustedReply slot act s = answer .corrupt (corruptAccount slot a s) := by
  simp [trustedReply, accountAt, found, withTrusted, live, verifyAccount_quarantines s differs live]

theorem trustedReply_agrees (found : tableGet s.accounts slot = some a) (agrees : a.checkWord = accountCheck a) :
    trustedReply slot act s = if a.state = .quarantined then answer .corrupt s else act a s := by
  simp [trustedReply, accountAt, found, withTrusted, verifyAccount_agrees s agrees]

theorem trustedReply_trusted (found : tableGet s.accounts slot = some a) (live : a.state ≠ .quarantined)
    (agrees : a.checkWord = accountCheck a) : trustedReply slot act s = act a s :=
  (trustedReply_agrees found agrees).trans (if_neg live)

/-- What a command that needs a trusted record answers without one. -/
theorem exec_trustedReply_refuses {c : Instr} {body : State → Reply} (ready : Ready s)
    (row : exec c s = hostRow c body s) (looks : body s = trustedReply slot act s) :
    (tableGet s.accounts slot = none → exec c s = completes c .noRecord [] s)
    ∧ ∀ a, tableGet s.accounts slot = some a →
      (a.state = .quarantined → exec c s = completes c .corrupt [] s)
      ∧ (a.state ≠ .quarantined → a.checkWord ≠ accountCheck a →
        exec c s = completes c .corrupt [] (corruptAccount slot a s)) := by
  refine ⟨fun free => ?_, fun a found => ⟨fun quarantined => ?_, fun live differs => ?_⟩⟩ <;>
    refine row.trans (hostRow_answers ready (looks.trans ?_))
  · exact trustedReply_free free
  · exact trustedReply_quarantined found quarantined
  · exact trustedReply_fails found live differs

end

/-! ### The checks of the account commands -/

theorem accountSlotOk_eq (slot : Nat) : accountSlotOk slot = decide (slot < 256) := rfl

theorem le_moneyMax_iff {n : Nat} : n ≤ Config.moneyMax ↔ n < 2 ^ 63 := by simp only [Config.moneyMax]; omega

theorem accountFieldsOk_eq (number limit : Nat) :
    accountFieldsOk number limit = decide (1 ≤ number ∧ number ≤ 65535 ∧ limit < 10 ^ 12) := by
  rw [Bool.eq_iff_iff]
  simp [accountFieldsOk, inRange_iff, and_assoc]

/-- The first check of the change form (R48). -/
theorem accountChangeFormOk_eq (slot number limit : Nat) : (accountSlotOk slot && accountFieldsOk number limit) =
    decide (slot < 256 ∧ 1 ≤ number ∧ number ≤ 65535 ∧ limit < 10 ^ 12) := by
  rw [accountSlotOk_eq, accountFieldsOk_eq, ← Bool.decide_and]

theorem periodFiguresOk_eq (p : PeriodFigures) : periodFiguresOk p =
    (p.net.toList.all (fun n => decide (n < 2 ^ 63)) && decide (p.charges < 2 ^ 63) && decide (p.fills ≤ 65535)) := by
  simp only [periodFiguresOk, le_moneyMax_iff]
  rfl

/-- The operands of the rewrite form are in range (R49). -/
def accountRewriteFormOk (slot number limit balance period : Nat) (current : PeriodFigures) : Bool :=
  accountSlotOk slot && accountFieldsOk number limit && decide (balance ≤ Config.moneyMax)
    && inRange 1 65535 period && periodFiguresOk current

/-- The first check of the rewrite form (R49). -/
theorem accountRewriteFormOk_eq (slot number limit balance period : Nat) (current : PeriodFigures) :
    accountRewriteFormOk slot number limit balance period current =
      (decide (slot < 256 ∧ 1 ≤ number ∧ number ≤ 65535 ∧ limit < 10 ^ 12 ∧ balance < 2 ^ 63
          ∧ 1 ≤ period ∧ period ≤ 65535 ∧ current.charges < 2 ^ 63 ∧ current.fills ≤ 65535)
        && current.net.toList.all (fun n => decide (n < 2 ^ 63))) := by
  rw [accountRewriteFormOk, accountChangeFormOk_eq, periodFiguresOk_eq, Bool.eq_iff_iff]
  simp only [Bool.and_eq_true, decide_eq_true_eq, inRange_iff, le_moneyMax_iff]
  tauto

/-- Every record has another account number (R47). -/
theorem accountNumberHeldElsewhere_none (n : Nat) (s : State) :
    accountNumberHeldElsewhere none n s = !s.accounts.all (fun p => p.2.number != n) := by
  simp [accountNumberHeldElsewhere, tableFind_isSome, List.not_all_eq_any_not, bne]

/-- Every other record has another account number (R48, R49). -/
theorem accountNumberHeldElsewhere_some (slot n : Nat) (s : State) :
    accountNumberHeldElsewhere (some slot) n s = !s.accounts.all (fun p => p.2.number != n || p.1 == slot) := by
  simp [accountNumberHeldElsewhere, tableFind_isSome, List.not_all_eq_any_not, bne]

/-- An enabled ALLOW entry that names the slot (R43). -/
theorem rangeReference_eq (e : RangeEntry) (slot : Nat) :
    (rangeReference e == some slot) = (e.enabled && e.policy == .allow && e.account == slot) := by
  cases h : e.enabled && e.policy == .allow <;> simp [rangeReference, h]

theorem rebuiltReferences_eq (slot : Nat) (s : State) : rebuiltReferences slot s =
    (s.machines.filter (fun p => p.2.account == slot)).length
      + (s.ranges.toList.filter (fun e => e.enabled && e.policy == .allow && e.account == slot)).length := by
  simp only [rebuiltReferences, rangeReference_eq]

/-! ### ACCOUNT OPEN and ACCOUNT AMEND (R47 to R49) -/

/-- What the change form does with a trusted record (R48). -/
def changeReply (slot number : Nat) (t : Tier) (limit : Nat) (a : AccountRecord) (s : State) : Reply :=
  if accountNumberHeldElsewhere (some slot) number s then answer .duplicateNumber s
  else answer .ok (writeAccount slot { a with number := number, tier := t, limit := limit } s)

theorem doAccountAmendChange_eq {tier : Nat} {t : Tier} (slot number limit : Nat) (s : State)
    (named : tierOf tier = some t) : doAccountAmendChange slot number tier limit s =
      if !(accountSlotOk slot && accountFieldsOk number limit) then answer .malformed s
      else trustedReply slot (changeReply slot number t limit) s := by
  simp only [doAccountAmendChange, named]
  rfl

theorem doAccountAmendChange_malformed {slot tier : Nat} (number limit : Nat) (s : State)
    (illFormed : tierOf tier = none ∨ 256 ≤ slot) :
    doAccountAmendChange slot number tier limit s = answer .malformed s := by
  cases named : tierOf tier with
  | none => simp only [doAccountAmendChange, named]
  | some t =>
    have tooHigh : 256 ≤ slot := illFormed.resolve_left (by simp [named])
    rw [doAccountAmendChange_eq slot number limit s named, accountSlotOk_eq]
    simp [Nat.not_lt.2 tooHigh]

/-- The record the rewrite form writes (R49). -/
def rewrittenAccount (slot number : Nat) (t : Tier) (limit balance period : Nat) (current : PeriodFigures)
    (a : AccountRecord) (s : State) : AccountRecord where
  state := if a.state = .stopped then .stopped else .opened
  number := number
  tier := t
  limit := limit
  balance := balance
  held := rebuiltHeld slot s
  openSessions := rebuiltOpen slot s
  references := rebuiltReferences slot s
  period := period
  current := current
  previous := none
  checkWord := 0

/-- What the rewrite form does with a record, verified or not (R49). -/
def rewriteReply (slot number : Nat) (t : Tier) (limit balance period : Nat) (current : PeriodFigures)
    (a : AccountRecord) (s : State) : Reply :=
  if accountNumberHeldElsewhere (some slot) number s then answer .duplicateNumber s
  else
    okWith (u64 (rebuiltHeld slot s) ++ u8 (rebuiltOpen slot s) ++ u16 (rebuiltReferences slot s))
      (writeAccount slot (rewrittenAccount slot number t limit balance period current a s) s)

section
variable (slot number limit balance period : Nat) (current : PeriodFigures) (s : State)

theorem doAccountAmendRewrite_malformed {slot tier : Nat} (illFormed : tierOf tier = none ∨ 256 ≤ slot) :
    doAccountAmendRewrite slot number tier limit balance period current s = answer .malformed s := by
  cases named : tierOf tier with
  | none => simp only [doAccountAmendRewrite, named]
  | some t =>
    have tooHigh : 256 ≤ slot := illFormed.resolve_left (by simp [named])
    simp [doAccountAmendRewrite, named, accountSlotOk_eq, Nat.not_lt.2 tooHigh]

theorem doAccountAmendRewrite_found {tier : Nat} {t : Tier} {a : AccountRecord} (named : tierOf tier = some t)
    (found : tableGet s.accounts slot = some a) :
    doAccountAmendRewrite slot number tier limit balance period current s =
      if !accountRewriteFormOk slot number limit balance period current then answer .malformed s
      else rewriteReply slot number t limit balance period current a s := by
  simp only [doAccountAmendRewrite, named, accountAt, found]
  rfl

theorem doAccountAmendRewrite_free {tier : Nat} {t : Tier} (named : tierOf tier = some t)
    (formed : accountRewriteFormOk slot number limit balance period current = true)
    (free : tableGet s.accounts slot = none) :
    doAccountAmendRewrite slot number tier limit balance period current s = answer .noRecord s := by
  simp only [doAccountAmendRewrite, named, accountAt, free]
  exact if_neg (by simpa [accountRewriteFormOk] using formed)

end

/-- R49: a rewritten record keeps its state, QUARANTINED having become OPEN. -/
theorem rewrittenAccount_state (st : AccountState) :
    (if st = .stopped then AccountState.stopped else .opened) = if st = .quarantined then .opened else st := by
  cases st <;> rfl

/-- Settles O12: the branches of the three commands are the checks of R47 to R49 one by one; then the FREE slot, the change
form without a trusted record, and the ill-formed commands. -/
theorem accountOpenAmendFollowR47R49 : Obligations.AccountOpenAmendFollowR47R49 := by
  refine ⟨fun number tier limit t s ready named => ⟨fun slot slotIs => ?_, fun slot a found =>
      ⟨fun agrees => ?_, fun balance period current held opens refs heldIs opensIs refsIs => ?_⟩⟩,
    fun slot number tier limit t s ready slotLt named low high limitFits => ?_,
    fun slot number tier limit balance period current s ready => ⟨fun unnamed => ?_, fun illFormed => ⟨?_, ?_⟩⟩⟩
  · refine (exec_accountOpen number tier limit s).trans (hostRow_checkedReply ready ?_)
    simp only [doAccountOpen, named, Config.accountSlots]
    refine ite_eq_checkedReply (by rw [accountFieldsOk_eq, Bool.not_eq_true']) fun _ => ?_
    cases free : lowestFree s.accounts 256 with
    | none => simp [checkedReply]
    | some lowest =>
      obtain rfl : lowest = slot := by simpa [free] using slotIs
      rw [Option.isSome_some, checkedReply_true]
      exact ite_eq_checkedReply (by simp [accountNumberHeldElsewhere_none]) fun _ => rfl
  · refine (exec_accountAmendChange slot number tier limit s).trans (hostRow_checkedReply ready ?_)
    rw [doAccountAmendChange_eq slot number limit s named, trustedReply_agrees found agrees]
    refine ite_eq_checkedReply (by rw [accountChangeFormOk_eq, Bool.not_eq_true']) fun _ => ?_
    refine ite_eq_checkedReply (by simp) fun _ => ?_
    exact ite_eq_checkedReply (by simp [accountNumberHeldElsewhere_some]) fun _ => rfl
  · refine (exec_accountAmendRewrite ..).trans (hostRow_checkedReply ready ?_)
    rw [doAccountAmendRewrite_found slot number limit balance period current s named found]
    refine ite_eq_checkedReply (by rw [accountRewriteFormOk_eq, Bool.not_eq_true']) fun _ => ?_
    refine ite_eq_checkedReply (by simp [accountNumberHeldElsewhere_some]) fun _ => ?_
    obtain rfl : held = rebuiltHeld slot s := heldIs
    obtain rfl : opens = rebuiltOpen slot s := opensIs
    obtain rfl : refs = rebuiltReferences slot s := refsIs.trans (rebuiltReferences_eq slot s).symm
    rw [checkedReply_nil, rewrittenAccount, rewrittenAccount_state]
    rfl
  · have formed : (accountSlotOk slot && accountFieldsOk number limit) = true := by
      simpa [accountChangeFormOk_eq] using ⟨slotLt, low, high, limitFits⟩
    have looks : doAccountAmendChange slot number tier limit s =
        trustedReply slot (changeReply slot number t limit) s := by
      simp [doAccountAmendChange_eq slot number limit s named, formed]
    obtain ⟨changeFree, changeFails⟩ :=
      exec_trustedReply_refuses ready (exec_accountAmendChange slot number tier limit s) looks
    refine ⟨fun free => ⟨changeFree free, fun balance period current b p q n1 n2 n3 charges fills => ?_⟩, changeFails⟩
    refine (exec_accountAmendRewrite ..).trans (hostRow_answers ready ?_)
    refine doAccountAmendRewrite_free slot number limit balance period current s named ?_ free
    simpa [accountRewriteFormOk_eq, ByGrade.toList] using
      ⟨⟨slotLt, low, high, limitFits, b, p, q, charges, fills⟩, n1, n2, n3⟩
  · refine (exec_accountOpen number tier limit s).trans (hostRow_answers ready ?_)
    simp [doAccountOpen, unnamed, answer, reply]
  · exact (exec_accountAmendChange slot number tier limit s).trans
      (hostRow_answers ready (doAccountAmendChange_malformed number limit s illFormed))
  · exact (exec_accountAmendRewrite ..).trans
      (hostRow_answers ready (doAccountAmendRewrite_malformed number limit balance period current s illFormed))

/-! ### ACCOUNT STOP, RESUME and RETIRE (R51, R52) -/

/-- ACCOUNT STOP and ACCOUNT RESUME as one command: a record in state `origin` takes state `target`. -/
def changeAccountState (origin target : AccountState) (slot : Nat) (s : State) : Reply :=
  if !accountSlotOk slot then answer .malformed s
  else
    match accountAt slot s with
    | none => answer .noRecord s
    | some a =>
      if a.state = .quarantined then answer .state s
      else
        match verifyAccount slot a s with
        | (false, s) => answer .corrupt s
        | (true, s) =>
          if a.state = origin then answer .ok (writeAccount slot { a with state := target } s) else answer .ok s

theorem doAccountStop_eq : doAccountStop = changeAccountState .opened .stopped := rfl
theorem doAccountResume_eq : doAccountResume = changeAccountState .stopped .opened := rfl

section
variable {origin target : AccountState} {slot : Nat} {s : State} {a : AccountRecord}

theorem changeAccountState_free (slotLt : slot < 256) (free : tableGet s.accounts slot = none) :
    changeAccountState origin target slot s = answer .noRecord s := by
  simp [changeAccountState, accountSlotOk_iff.2 slotLt, accountAt, free]

theorem changeAccountState_quarantined (slotLt : slot < 256) (found : tableGet s.accounts slot = some a)
    (quarantined : a.state = .quarantined) : changeAccountState origin target slot s = answer .state s := by
  simp [changeAccountState, accountSlotOk_iff.2 slotLt, accountAt, found, quarantined]

theorem changeAccountState_fails (slotLt : slot < 256) (found : tableGet s.accounts slot = some a)
    (live : a.state ≠ .quarantined) (differs : a.checkWord ≠ accountCheck a) :
    changeAccountState origin target slot s = answer .corrupt (corruptAccount slot a s) := by
  simp [changeAccountState, accountSlotOk_iff.2 slotLt, accountAt, found, live,
    verifyAccount_quarantines s differs live]

theorem changeAccountState_ok (slotLt : slot < 256) (found : tableGet s.accounts slot = some a)
    (live : a.state ≠ .quarantined) (agrees : a.checkWord = accountCheck a) (two : a.state = origin ↔ a.state ≠ target) :
    changeAccountState origin target slot s = answer .ok
      { s with
        accounts := if a.state = target then s.accounts
          else tableSet s.accounts slot (accountStamp { a with state := target }) } := by
  have body : changeAccountState origin target slot s =
      if a.state = origin then answer .ok (writeAccount slot { a with state := target } s) else answer .ok s := by
    simp [changeAccountState, accountSlotOk_iff.2 slotLt, accountAt, found, live, verifyAccount_agrees s agrees]
  by_cases h : a.state = target
  · rw [body, if_neg (two.not.2 (not_not.2 h)), if_pos h]
  · rw [body, if_pos (two.2 h), if_neg h]
    rfl

end

/-- An account that is not QUARANTINED is either OPEN or STOPPED (3.2). -/
theorem opened_iff_not_stopped {st : AccountState} (live : st ≠ .quarantined) : st = .opened ↔ st ≠ .stopped := by
  cases st <;> simp_all

/-- Settles O13: the two state changes are `changeAccountState`; RETIRE goes by the figures stored, or rebuilt. -/
theorem accountStopResumeRetireFollowR51R52 : Obligations.AccountStopResumeRetireFollowR51R52 := by
  have stops {slot : Nat} {s t : State} {st : Status} (ready : Ready s)
      (h : changeAccountState .opened .stopped slot s = answer st t) :
      exec (.accountStop slot) s = completes (.accountStop slot) st [] t :=
    (exec_accountStop slot s).trans (hostRow_answers ready (doAccountStop_eq ▸ h))
  have resumes {slot : Nat} {s t : State} {st : Status} (ready : Ready s)
      (h : changeAccountState .stopped .opened slot s = answer st t) :
      exec (.accountResume slot) s = completes (.accountResume slot) st [] t :=
    (exec_accountResume slot s).trans (hostRow_answers ready (doAccountResume_eq ▸ h))
  refine ⟨fun slot s a ready slotLt found => ⟨fun quarantined => ?_, fun live agrees => ?_,
      fun refs opens figures => ?_⟩,
    fun slot s ready slotLt => ⟨fun free => ?_, fun a found live differs => ?_⟩⟩
  · exact ⟨stops ready (changeAccountState_quarantined slotLt found quarantined),
      resumes ready (changeAccountState_quarantined slotLt found quarantined)⟩
  · have two : a.state = .opened ↔ a.state ≠ .stopped := opened_iff_not_stopped live
    exact ⟨stops ready (changeAccountState_ok slotLt found live agrees two),
      resumes ready (changeAccountState_ok slotLt found live agrees (not_iff_comm.1 two.symm).symm)⟩
  · have examined : (if a.state = .quarantined then rebuiltReferences slot s else a.references) = refs
        ∧ (if a.state = .quarantined then rebuiltOpen slot s else a.openSessions) = opens := by
      rcases figures with ⟨live, rfl, rfl⟩ | ⟨quarantined, rfl, rfl⟩
      · exact ⟨if_neg live, if_neg live⟩
      · exact ⟨if_pos quarantined, if_pos quarantined⟩
    obtain ⟨refsIs, opensIs⟩ := examined
    have body : doAccountRetire slot s =
        if refs = 0 ∧ opens = 0 then okWith (accountBytes a) { s with accounts := tableErase s.accounts slot }
        else reply .inUse (u16 refs ++ u8 opens) s := by
      simp [doAccountRetire, accountSlotOk_iff.2 slotLt, accountAt, found, refsIs, opensIs]
    rw [exec_accountRetire]
    split_ifs with unused
    · exact hostRow_answers ready (body.trans (if_pos unused))
    · exact hostRow_answers ready (body.trans (if_neg unused))
  · refine ⟨stops ready (changeAccountState_free slotLt free), resumes ready (changeAccountState_free slotLt free),
      (exec_accountRetire slot s).trans (hostRow_answers ready ?_)⟩
    simp [doAccountRetire, accountSlotOk_iff.2 slotLt, accountAt, free, answer, reply]
  · exact ⟨stops ready (changeAccountState_fails slotLt found live differs),
      resumes ready (changeAccountState_fails slotLt found live differs)⟩

/-! ### SETTLE, PERIOD CLOSE and STATEMENT RELEASE (R53 to R55) -/

/-- What SETTLE does with a trusted record (R53). -/
def settleReply (slot amount : Nat) (a : AccountRecord) (s : State) : Reply :=
  if a.balance < amount then reply .overSettle (u64 a.balance) s
  else if amount = 0 then okWith (u64 a.balance) s
  else okWith (u64 (a.balance - amount)) (writeAccount slot { a with balance := a.balance - amount } s)

/-- What PERIOD CLOSE does with a trusted record (R54). -/
def periodCloseReply (slot : Nat) (a : AccountRecord) (s : State) : Reply :=
  match statementUnread a with
  | some n => reply .unread (u16 n) s
  | none => okWith (u16 a.period) (writeAccount slot (closedPeriod (siteTime s) a) s)

/-- What STATEMENT RELEASE does with a trusted record (R55). -/
def releaseReply (slot period : Nat) (a : AccountRecord) (s : State) : Reply :=
  match a.previous with
  | none => answer .state s
  | some p =>
    if p.period ≠ period then answer .state s
    else if p.unread then answer .ok (writeAccount slot { a with previous := some { p with unread := false } } s)
    else answer .ok s

section
variable {slot : Nat} (slotLt : slot < 256) (s : State)
include slotLt

theorem doSettle_eq {amount : Nat} (fits : amount < 2 ^ 63) :
    doSettle slot amount s = trustedReply slot (settleReply slot amount) s :=
  if_neg (by simp [accountSlotOk_iff.2 slotLt, le_moneyMax_iff.2 fits])

theorem doPeriodClose_eq : doPeriodClose slot s = trustedReply slot (periodCloseReply slot) s :=
  if_neg (by simp [accountSlotOk_iff.2 slotLt])

theorem doStatementRelease_eq {period : Nat} (fits : period ≤ 65535) :
    doStatementRelease slot period s = trustedReply slot (releaseReply slot period) s :=
  if_neg (by simp [accountSlotOk_iff.2 slotLt, fits])

end

section
variable {a : AccountRecord} {p : Statement}

theorem statementUnread_some (stands : a.previous = some p) (unread : p.unread = true) :
    statementUnread a = some p.period := by
  simp [statementUnread, stands, unread]

theorem statementUnread_none (read : ∀ p, a.previous = some p → p.unread = false) : statementUnread a = none := by
  cases stands : a.previous with
  | none => simp [statementUnread, stands]
  | some p => simp [statementUnread, stands, read p stands]

theorem releaseReply_other {n : Nat} (slot : Nat) (s : State) (other : a.previous.map Statement.period ≠ some n) :
    releaseReply slot n a s = answer .state s := by
  cases stands : a.previous with
  | none => simp [releaseReply, stands]
  | some p =>
    have ne : p.period ≠ n := by simpa [stands] using other
    simp [releaseReply, stands, ne]

theorem releaseReply_named (slot : Nat) (s : State) (stands : a.previous = some p) :
    releaseReply slot p.period a s = answer .ok
      { s with
        accounts := if p.unread then
            tableSet s.accounts slot (accountStamp { a with previous := some { p with unread := false } })
          else s.accounts } := by
  cases unread : p.unread <;> simp [releaseReply, stands, unread, writeAccount, putAccount]

end

/-- Settles O14: each command by what it does with a trusted record; without one, all three as `trustedReply` refuses. -/
theorem settlementAndPeriodsFollowR53R55 : Obligations.SettlementAndPeriodsFollowR53R55 := by
  refine ⟨fun slot s a ready slotLt found live agrees => ?_,
    fun slot amount period s ready slotLt fits periodFits c is => ?_⟩
  · have acts (act) : trustedReply slot act s = act a s := trustedReply_trusted found live agrees
    have closes {t : State} {st : Status} {payload : List Byte}
        (h : periodCloseReply slot a s = (t, some ⟨st, payload⟩)) :
        exec (.periodClose slot) s = completes (.periodClose slot) st payload t :=
      (exec_periodClose slot s).trans (hostRow_answers ready ((doPeriodClose_eq slotLt s).trans ((acts _).trans h)))
    have releases {n : Nat} {t : State} {st : Status} (fits : n ≤ 65535) (h : releaseReply slot n a s = answer st t) :
        exec (.statementRelease slot n) s = completes (.statementRelease slot n) st [] t :=
      (exec_statementRelease slot n s).trans
        (hostRow_answers ready ((doStatementRelease_eq slotLt s fits).trans ((acts _).trans h)))
    refine ⟨fun amount fits => ?_, fun p stands unread => ?_, fun read => ?_,
      fun n fits => ⟨fun other => ?_, fun p stands named => ?_⟩⟩
    · have settles : doSettle slot amount s = settleReply slot amount a s := (doSettle_eq slotLt s fits).trans (acts _)
      rw [exec_settle]
      unfold settleReply at settles
      split_ifs at settles ⊢ <;> exact hostRow_answers ready settles
    · refine closes ?_
      simp only [periodCloseReply, statementUnread_some stands unread]
      rfl
    · refine closes ?_
      simp only [periodCloseReply, statementUnread_none read]
      rfl
    · exact releases fits (releaseReply_other slot s other)
    · subst named
      exact releases fits (releaseReply_named slot s stands)
  · rcases is with rfl | rfl | rfl
    · exact exec_trustedReply_refuses ready (exec_settle slot amount s) (doSettle_eq slotLt s fits)
    · exact exec_trustedReply_refuses ready (exec_periodClose slot s) (doPeriodClose_eq slotLt s)
    · exact exec_trustedReply_refuses ready (exec_statementRelease slot period s)
        (doStatementRelease_eq slotLt s periodFits)

/-! ### PRICE WRITE and PRICE READ (R56) -/

/-- Settles O15: PRICE WRITE by its one check, PRICE READ by the twelve prices in order. -/
theorem priceCommandsFollowR56 : Obligations.PriceCommandsFollowR56 := by
  refine fun s ready => ⟨fun tier t g price named => ?_, fun tier g price unnamed => ?_, ?_⟩
  · refine (exec_priceWrite tier g price s).trans (hostRow_checkedReply ready ?_)
    simp only [doPriceWrite, named]
    rw [← ite_not]
    exact ite_eq_checkedReply (by rw [decide_eq_false_iff_not, Nat.lt_succ_iff]) fun _ => rfl
  · refine (exec_priceWrite tier g price s).trans (hostRow_answers ready ?_)
    simp only [doPriceWrite, unnamed]
    rfl
  · exact (exec_priceRead s).trans (hostRow_answers ready rfl)

end Sys2Proof.Machine
end

section
/-! PROOFS. REFER REPLY: the account check by the record it finds, the checks of an accepted request as one list, the end of
a waiting request, and the statement. -/

namespace Sys2Proof.Machine

/-! ### The account check (R58, R80) -/

section
variable {slot : Nat} {s : State} {a : AccountRecord}

theorem checkAccount_free (free : tableGet s.accounts slot = none) : checkAccount slot s = (false, s) := by
  simp [checkAccount, accountAt, free]

theorem checkAccount_fails (found : tableGet s.accounts slot = some a) (live : a.state ≠ .quarantined)
    (differs : a.checkWord ≠ accountCheck a) : checkAccount slot s = (false, corruptAccount slot a s) := by
  simp [checkAccount, accountAt, found, verifyAccount_quarantines s differs live]

theorem checkAccount_agrees (found : tableGet s.accounts slot = some a) (agrees : a.checkWord = accountCheck a) :
    checkAccount slot s = (a.state == .opened, s) := by
  simp [checkAccount, accountAt, found, verifyAccount_agrees s agrees]

end

/-! ### The checks of an accepted request (R80, R91) -/

theorem fluidSet_eq (g : GradeSet) : fluidSet g = (g == ⟨false, false, true⟩) := by
  obtain ⟨a, b, c⟩ := g
  cases a <;> cases b <;> cases c <;> rfl

theorem fluidHose_eq (id : HoseId) : fluidHose id = (id == .h3) := by cases id <;> rfl

/-- A branch that names its failure is the next check of the list. -/
theorem ite_eq_firstFailing {α : Type} {p : Prop} [Decidable p] {b : Bool} {e : α} {checks : List (Bool × α)}
    {rest : Option α} (fails : p ↔ b = false) (holds : rest = firstFailing checks) :
    (if p then some e else rest) = firstFailing ((b, e) :: checks) := by
  cases b <;> simp [fails, holds]

/-- Checks 1 to 4 of R80 at a REFERRED hose. -/
def referredChecks (id : HoseId) (s : State) : List (Bool × Reason) :=
  [(!s.field.levels.estop, .estop), (s.field.levels.park, .vehicleMoving), (!hoseStopValid id s, .hoseUnavailable),
    ((s.store.meters.get id.meter).calibrated, .uncalibrated)]

/-- A REFERRED hose is neither OUT_OF_SERVICE nor LOCKED nor COMPLETE: checks 1 to 4 remain. -/
theorem hoseCheck_referred {id : HoseId} {s : State} (referred : (s.hoses.get id).state = .referred) :
    hoseCheck id s = firstFailing (referredChecks id s) := by
  have unavailable : hoseUnavailable id s = hoseStopValid id s := by simp [hoseUnavailable, referred]
  refine ite_eq_firstFailing (by simp) (ite_eq_firstFailing (by simp) (ite_eq_firstFailing (by simp [unavailable])
    (ite_eq_firstFailing (by simp [calibrated]) ?_)))
  simp [referred]

/-- Of two lists of checks the first is taken first. -/
theorem firstFailing_append {α : Type} (c d : List (Bool × α)) :
    firstFailing (c ++ d) = (firstFailing c).or (firstFailing d) := by
  induction c with
  | nil => rfl
  | cons x c ih =>
    obtain ⟨b, e⟩ := x
    cases b
    · rfl
    · exact ih

/-- R91: checks 1 to 4, then the class, then the hold. -/
theorem judgeReply_referred {id : HoseId} {s : State} (referred : (s.hoses.get id).state = .referred) (t : Terms)
    (a : AccountRecord) : judgeReply id t a s =
      match firstFailing
        (referredChecks id s ++ [((t.grades == ⟨false, false, true⟩) == (id == .h3), .misfuel)]) with
      | some r => .error r
      | none => settleHold id t a s := by
  rw [firstFailing_append, ← hoseCheck_referred referred, judgeReply, fluidSet_eq, fluidHose_eq]
  cases hoseCheck id s with
  | some r => rfl
  | none => cases fits : (t.grades == ⟨false, false, true⟩) == (id == .h3) <;> simp [bne, fits]

/-! ### The end of a waiting request (R81, R90, R93) -/

section
variable {id : HoseId} {h : Hose} {w : Waiting} {s : State} (at_id : s.hoses.get id = h)
include at_id

/-- A refused request: the hose IDLE with its last refusal, its REFER notice gone. -/
theorem writeRefusal_endWaiting (tag : Nat) (r : Reason) : writeRefusal id (some tag) r (endWaiting id s) =
    { s with
      hoses := s.hoses.set id
        { h with
          state := .idle, waiting := none, referTimer := none
          lastRefusal := some { time := s.timebase.count, tag := some tag, reason := r } }
      notices := s.notices.filter (fun x => x != .refer id) } := by
  simp [writeRefusal, endWaiting, dropNotice, setHose, siteTime, at_id]

theorem endReferred_waiting (waits : h.waiting = some w) (r : Reason) :
    endReferred id r s = writeRefusal id (some w.tag) r (endWaiting id s) := by
  simp [endReferred, at_id, waits]

theorem enterReferred_again (referred : h.state = .referred) (x : Waiting) : enterReferred id x s =
    raise (.refer id)
      { s with
        hoses := s.hoses.set id
          { h with waiting := some x, referTimer := some (s.timebase.now + h.setup.referDeadline * 1000) } } := by
  simp only [enterReferred, at_id, setHose, ← referred]
  rfl

end

/-! ### REFER REPLY by the state of its hose and the account it names (R91, R92) -/

section
variable {n account limit : Nat} {grades : GradeSet} {id : HoseId} {s : State} (named : hoseOf n = some id)
include named

theorem doReferReplyRefuse_rests (other : (s.hoses.get id).state ≠ .referred) :
    doReferReplyRefuse n s = answer .state s := by
  simp [doReferReplyRefuse, named, other]

theorem doReferReplyRefuse_referred (referred : (s.hoses.get id).state = .referred) :
    doReferReplyRefuse n s = answer .ok (endReferred id .hostRefused s) := by
  simp [doReferReplyRefuse, named, referred]

theorem doReferReplyRecheck_rests (other : (s.hoses.get id).state ≠ .referred) :
    doReferReplyRecheck n s = answer .state s := by
  simp [doReferReplyRecheck, named, other]

/-- R92: the verdict on the present tag, the look-up of its record having left `t`. -/
theorem doReferReplyRecheck_referred (referred : (s.hoses.get id).state = .referred) {p : Presence} {v : Verdict}
    {t : State} (present : (s.readers.get id).present = some p) (judged : judgeTag id p.tag s = (v, t)) :
    doReferReplyRecheck n s =
      match v with
      | .referred w => okWith (u8 0) (enterReferred id w t)
      | .granted terms c =>
        okWith (u8 1 ++ authorisedBytes id (openSession id terms c (endWaiting id t)))
          (openSession id terms c (endWaiting id t))
      | .refused r => okWith (u8 2 ++ u8 (reasonCode r)) (writeRefusal id (some p.tag) r (endWaiting id t)) := by
  have tagIs : recheckTag id s = p.tag := by simp only [recheckTag, present]
  simp only [doReferReplyRecheck, named, if_neg (not_not.2 referred), tagIs, judged]
  cases v <;> rfl

variable (accountLt : account < 256) (permitted : permittedSet grades = true) (low : 1 ≤ limit) (high : limit ≤ 20000)
include accountLt permitted low high

theorem doReferReplyAccept_rests (other : (s.hoses.get id).state ≠ .referred) :
    doReferReplyAccept n account grades limit s = answer .state s := by
  simp [doReferReplyAccept, named, accountSlotOk_iff.2 accountLt, permitted, inRange_iff.2 ⟨low, high⟩, other]

variable (referred : (s.hoses.get id).state = .referred)
include referred

/-- R91: an account that does not pass leaves the hose waiting. -/
theorem doReferReplyAccept_stopped {t : State} (stopped : checkAccount account s = (false, t)) :
    doReferReplyAccept n account grades limit s = answer .accountStopped t := by
  simp [doReferReplyAccept, named, accountSlotOk_iff.2 accountLt, permitted, inRange_iff.2 ⟨low, high⟩, referred, stopped]

/-- R91: an account that passes, by the verdict on the request. -/
theorem doReferReplyAccept_passes {a : AccountRecord} {w : Waiting} (found : tableGet s.accounts account = some a)
    (passes : checkAccount account s = (true, s)) (waits : (s.hoses.get id).waiting = some w) :
    doReferReplyAccept n account grades limit s =
      match judgeReply id (replyTerms (some w.tag) account grades limit) a s with
      | .error r => okWith (u8 1 ++ u8 (reasonCode r)) (endReferred id r s)
      | .ok c => authorised id (openSession id (replyTerms (some w.tag) account grades limit) c (endWaiting id s)) := by
  simp only [doReferReplyAccept, named, accountSlotOk_iff.2 accountLt, permitted, inRange_iff.2 ⟨low, high⟩, referred,
    passes, accountAt, found, waits]
  rfl

end

/-- Settles O25: at a hose that waits, REFUSE by the end of the request, ACCEPT by the account check and the verdict on the
terms, RECHECK by the verdict on the present tag. -/
theorem referRepliesFollowR91R92 : Obligations.ReferRepliesFollowR91R92 := by
  intro n id s h ready named at_id
  refine ⟨fun other => ?_, fun referred w ended waits endedIs => ?_⟩
  · have notReferred : (s.hoses.get id).state ≠ .referred := at_id ▸ other
    refine ⟨?_, fun account grades limit accountLt permitted low high => ?_, ?_⟩
    · exact (exec_referReplyRefuse n s).trans (hostRow_answers ready (doReferReplyRefuse_rests named notReferred))
    · exact (exec_referReplyAccept n account grades limit s).trans
        (hostRow_answers ready (doReferReplyAccept_rests named accountLt permitted low high notReferred))
    · exact (exec_referReplyRecheck n s).trans (hostRow_answers ready (doReferReplyRecheck_rests named notReferred))
  · have waiting : (s.hoses.get id).state = .referred := at_id ▸ referred
    have refused (r : Reason) : writeRefusal id (some w.tag) r (endWaiting id s) = ended r :=
      (writeRefusal_endWaiting at_id w.tag r).trans (endedIs r).symm
    have ends (r : Reason) : endReferred id r s = ended r := (endReferred_waiting at_id waits r).trans (refused r)
    refine ⟨?_, fun account grades limit accountLt permitted low high => ?_,
      fun account grades limit a accountLt permitted low high found agrees => ?_, fun p present => ?_⟩
    · rw [← ends]
      exact (exec_referReplyRefuse n s).trans (hostRow_answers ready (doReferReplyRefuse_referred named waiting))
    · have stops {t} (stopped : checkAccount account s = (false, t)) :
          exec (.referReplyAccept n account grades limit) s =
            completes (.referReplyAccept n account grades limit) .accountStopped [] t :=
        (exec_referReplyAccept n account grades limit s).trans
          (hostRow_answers ready (doReferReplyAccept_stopped named accountLt permitted low high waiting stopped))
      exact ⟨fun free => stops (checkAccount_free free), fun a found opened differs =>
        stops (checkAccount_fails found (by simp [opened]) differs)⟩
    · have checks : checkAccount account s = (a.state == .opened, s) := checkAccount_agrees found agrees
      refine ⟨fun notOpen => ?_, fun opened terms verdict termsIs verdictIs => ?_⟩
      · refine (exec_referReplyAccept n account grades limit s).trans (hostRow_answers ready
          (doReferReplyAccept_stopped named accountLt permitted low high waiting (checks.trans ?_)))
        simp [notOpen]
      · subst termsIs
        have passes : checkAccount account s = (true, s) := by simpa [opened] using checks
        have judged : judgeReply id (replyTerms (some w.tag) account grades limit) a s = verdict :=
          (judgeReply_referred waiting _ a).trans verdictIs.symm
        have body := doReferReplyAccept_passes named accountLt permitted low high waiting found passes (at_id ▸ waits)
        rw [judged] at body
        refine ⟨fun r is => ?_, fun c u is uIs => ?_⟩ <;>
          refine (exec_referReplyAccept n account grades limit s).trans (hostRow_answers ready ?_) <;> subst is
        · simp only [body, ends]
          rfl
        · simp only [body, uIs]
          rfl
    · have rechecks {v : Verdict} (judged : judgeTag id p.tag s = (v, s)) :=
        doReferReplyRecheck_referred named waiting present judged
      refine ⟨fun x judged => ?_, fun terms c u judged uIs => ?_, fun r judged same => ?_⟩ <;>
        refine (exec_referReplyRecheck n s).trans (hostRow_answers ready ((rechecks judged).trans ?_))
      · simp only [enterReferred_again at_id referred]
        rfl
      · rw [uIs]
        rfl
      · simp only [same, refused]
        rfl

end Sys2Proof.Machine
end

section
/-! PROOFS. The shared ends of requests, sessions and runs: what each leaves, field by field, and what a STOP fault does to a
hose in each state. -/

namespace Sys2Proof.Machine

/-! ### States of a hose in groups -/

theorem delivering_cases {st : HoseState} (delivers : [HoseState.flowing, .slowing, .paused].contains st = true) :
    st = .flowing ∨ st = .slowing ∨ st = .paused := by simpa using delivers

theorem open_of_delivering {st : HoseState} (delivers : [HoseState.flowing, .slowing, .paused].contains st = true) :
    openState st = true := by
  rcases delivering_cases delivers with rfl | rfl | rfl <;> rfl

theorem not_waiting_of_delivering {st : HoseState}
    (delivers : [HoseState.flowing, .slowing, .paused].contains st = true) :
    [HoseState.referred, .proveReady, .proveFlowing, .proveHeld].contains st = false := by
  rcases delivering_cases delivers with rfl | rfl | rfl <;> rfl

/-! ### The end of a request, a pause, the entry to STOPPING, the hold and the end of a run (R93, R117, R126, R160 to R162) -/

theorem stopFlowing_eq (now : Nat) (r : Run) : stopFlowing now r =
    { r with
      flowingTime := r.flowOpened.elim r.flowingTime (fun t => min (now - t) (2 ^ 32 - 1))
      flowOpened := none } := by
  unfold stopFlowing flowingTimeNow
  cases r.flowOpened <;> rfl

/-- The result of hose `id` is being written exactly when the write in progress carries its factor (R163). -/
theorem judged_iff {id : HoseId} {s : State} :
    judged id s = true ↔ ∃ c r, s.store.write = some { command := c, change := .factor id r } := by
  unfold judged
  cases s.store.write with
  | none => simp
  | some w =>
    obtain ⟨c, change⟩ := w
    cases change <;> simp

theorem not_judged {id : HoseId} {s : State}
    (free : ∀ c r, s.store.write ≠ some { command := c, change := .factor id r }) : judged id s = false := by
  rw [Bool.eq_false_iff, ne_eq, judged_iff]
  rintro ⟨c, r, writing⟩
  exact free c r writing

section
variable {id : HoseId} {h : Hose} {s : State} (at_id : s.hoses.get id = h)
include at_id

theorem endReferred_eq (reason : Reason) : endReferred id reason s =
    { s with
      hoses := s.hoses.set id
        { h with
          state := .idle, waiting := none, referTimer := none
          lastRefusal := some { time := s.timebase.count, tag := h.waiting.map Waiting.tag, reason := reason } }
      notices := s.notices.filter (fun n => n != .refer id) } := by
  simp [endReferred, writeRefusal, endWaiting, dropNotice, setHose, siteTime, at_id]

/-! ### STOP faults (R107, R122, R162, R165) -/

theorem stopFault_delivering (cause : StopCause)
    (delivers : [HoseState.flowing, .slowing, .paused].contains h.state = true) :
    stopFault id cause s = enterStopping id cause false (setHose id { h with stopFaultFound := true } s) := by
  rcases delivering_cases delivers with is | is | is <;> simp only [stopFault, at_id, is]

theorem stopFault_stopping (cause : StopCause) (stopping : h.state = .stopping) :
    stopFault id cause s = setHose id { h with stopFaultFound := true } s := by
  simp only [stopFault, at_id, stopping]

/-- A request ends and the hose is LOCKED in its place. -/
theorem stopFault_referred (cause : StopCause) (referred : h.state = .referred) : stopFault id cause s =
    { s with
      hoses := s.hoses.set id
        { h with
          state := .locked, waiting := none, referTimer := none
          lastRefusal := some
            { time := s.timebase.count, tag := h.waiting.map Waiting.tag, reason := .hoseUnavailable } }
      notices := s.notices.filter (fun n => n != .refer id) } := by
  simp only [stopFault, at_id, referred, endReferred_eq at_id, setHose, ByHose_get_set, ByHose_set_set]

/-- A run ends by a STOP fault while its result is not being written. -/
theorem stopFault_proving (cause : StopCause)
    (runs : h.state = .proveReady ∨ h.state = .proveFlowing ∨ (h.state = .proveHeld ∧ judged id s = false)) :
    stopFault id cause s = endRun id .fault .locked s := by
  rcases runs with is | is | ⟨is, free⟩
  · simp only [stopFault, at_id, is]
  · simp only [stopFault, at_id, is]
  · simp [stopFault, at_id, is, free]

/-- A run whose result is being written is only marked (R165). -/
theorem stopFault_judged (cause : StopCause) (held : h.state = .proveHeld) (writing : judged id s = true) :
    stopFault id cause s = setHose id { h with stopFaultFound := true } s := by
  simp [stopFault, at_id, held, writing]

end

/-- Settles O37: each shared end by its own equation, then STOP faults by the state of the hose. -/
theorem requestPauseStopSpelledOut : Obligations.RequestPauseStopSpelledOut := by
  intro id h s at_id
  refine ⟨endReferred_eq at_id, fun reason => ?_, fun cause atWindow => ?_, ⟨fun rests => ?_, ?_⟩,
    fun timed timedIs => ?_, fun cause marked markedIs => ?_, ?_, rfl⟩
  · subst at_id
    rfl
  · subst at_id
    rfl
  · subst at_id
    exact pairByTag_rests (by simpa only [presentTag, Option.map_eq_none_iff] using rests)
  · intro p off present new starts
    subst at_id
    exact pairByTag_starts off (by simp [presentTag, present]) new starts
  · obtain rfl : timed = stopFlowing s.timebase.now := funext fun r => (timedIs r).trans (stopFlowing_eq _ r).symm
    subst at_id
    exact ⟨fun _ _ => rfl, fun _ _ => rfl⟩
  · have marks : marked = setHose id { h with stopFaultFound := true } s := markedIs
    rw [marks]
    refine ⟨fun ready => ?_, stopFault_delivering at_id cause, stopFault_stopping at_id cause, fun rests => ?_,
      fun locked => ?_, fun out => ?_, stopFault_referred at_id cause, fun runs => ?_,
      fun held => ⟨fun free => ?_, fun c r writing => ?_⟩⟩
    · simp only [stopFault, at_id, ready]
    · rcases rests with is | is <;> simp only [stopFault, at_id, is, setHose]
    · simp only [stopFault, at_id, locked]
    · simp only [stopFault, at_id, out, setHose]
    · exact stopFault_proving at_id cause (runs.imp_right .inl)
    · exact stopFault_proving at_id cause (.inr (.inr ⟨held, not_judged free⟩))
    · exact stopFault_judged at_id cause held (judged_iff.2 ⟨c, r, writing⟩)
  · simp only [meterStop, meterHose_meter]

end Sys2Proof.Machine
end

section
/-! PROOFS. The nozzle switch, the timers of a request and of a session, the emergency stop and the park brake: what each
does by the state of the hose, and the three statements. -/

namespace Sys2Proof.Machine

/-! ### The nozzle switch (R79, R93, R109, R114, R118, R119, R160) -/

theorem setPaired_setPaired (id : HoseId) (a b : Option Nat) (s : State) :
    setPaired id a (setPaired id b s) = setPaired id a s := by simp [setPaired, setHose]

/-- The end of a rewind leaves the state of the hose as it was. -/
theorem endRewind_state (id : HoseId) (outcome : RewindOutcome) (s : State) :
    ((endRewind id outcome s).hoses.get id).state = (s.hoses.get id).state := by
  cases reel : (s.hoses.get id).outputs.reel <;> simp [endRewind, stopRewind, reel]

theorem endRewind_readers (id : HoseId) (outcome : RewindOutcome) (s : State) :
    (endRewind id outcome s).readers = s.readers := by
  cases reel : (s.hoses.get id).outputs.reel <;> simp [endRewind, stopRewind, reel]

/-- No rewind runs: nothing ends. -/
theorem endRewind_still {id : HoseId} {s : State} (outcome : RewindOutcome)
    (still : (s.hoses.get id).outputs.reel = false) : endRewind id outcome s = s := by simp [endRewind, still]

/-- R79: the present tag's authorisation starts, and its pair has started one. -/
theorem nozzleLifted_starts {id : HoseId} {s : State} {p : Presence} (present : (s.readers.get id).present = some p)
    (starts : startsFrom.contains (s.hoses.get id).state = true) :
    nozzleLifted id s = authoriseTag id p.tag (setPaired id (some p.tag) (endRewind id .interrupted s)) := by
  have tagIs : presentTag id (setPaired id none (endRewind id .interrupted s)) = some p.tag := by
    simp [presentTag, setPaired_eq, endRewind_readers, present]
  have stateIs : startsFrom.contains ((setPaired id none (endRewind id .interrupted s)).hoses.get id).state = true := by
    rwa [setPaired_eq, setHose_hoses, ByHose_get_set, endRewind_state]
  rw [nozzleLifted, startAuthorisation_starts tagIs stateIs, authorisePair, setPaired_setPaired]

theorem nozzleLifted_rests {id : HoseId} {s : State}
    (rests : (s.readers.get id).present = none ∨ startsFrom.contains (s.hoses.get id).state = false) :
    nozzleLifted id s = setPaired id none (endRewind id .interrupted s) := by
  refine startAuthorisation_rests (rests.imp (fun absent => ?_) fun other => ?_)
  · simp [presentTag, setPaired_eq, endRewind_readers, absent]
  · rwa [setPaired_eq, setHose_hoses, ByHose_get_set, endRewind_state]

section
variable {id : HoseId} {h : Hose} {s : State} (at_id : s.hoses.get id = h)
include at_id

theorem nozzleHung_delivering (delivers : [HoseState.flowing, .slowing, .paused].contains h.state = true) :
    nozzleHung id s = enterStopping id .nozzleHung false s := by
  rcases delivering_cases delivers with is | is | is <;> simp only [nozzleHung, at_id, is]

theorem nozzleHung_rests (rests : [HoseState.idle, .stopping, .complete, .locked, .outOfService, .proveReady,
    .proveHeld].contains h.state = true) : nozzleHung id s = s := by
  unfold nozzleHung
  rw [at_id]
  generalize h.state = st at rests
  cases st <;> first | rfl | cases rests

end

/-- Settles O33: a lifted nozzle by whether it completes a pair in a state that starts an authorisation, a hung one by the
state of the hose. -/
theorem nozzleSwitchFollowsR79R119 : Obligations.NozzleSwitchFollowsR79R119 := by
  intro id offHook h s moved lifted running at_h moves liftedIs movedIs
  have at_moved : moved.hoses.get id = h := by rw [movedIs, at_h]
  have readers : moved.readers = s.readers := by rw [movedIs]
  have liftedEq (tag) : lifted tag = setPaired id tag (endRewind id .interrupted moved) := liftedIs tag _ rfl
  have acts : exec (.nozzleSwitch id offHook) s =
      happens (if offHook then nozzleLifted id moved else nozzleHung id moved) := by
    rw [movedIs]
    exact congrArg Host.Outcome.next (switchStep_running moves running)
  rw [acts]
  refine ⟨fun off => ?_, fun on => ?_⟩
  · rw [if_pos off]
    refine ⟨fun p present starts => ?_, fun rests => ?_⟩
    · rw [nozzleLifted_starts (readers ▸ present) (at_moved ▸ starts), liftedEq]
    · rw [nozzleLifted_rests (by rwa [readers, at_moved]), liftedEq]
  · rw [if_neg (by simp [on])]
    refine ⟨fun referred => ?_, fun ready => ?_, fun delivers => ?_, fun flows => ?_, fun rests => ?_⟩
    · simp only [nozzleHung, at_moved, referred]
    · simp only [nozzleHung, at_moved, ready]
    · rw [nozzleHung_delivering at_moved delivers]
    · simp only [nozzleHung, at_moved, flows]
    · rw [nozzleHung_rests at_moved rests]

/-! ### The timers (R93, R114, R118, R127) -/

/-- The expiry of a timer that belongs to the state the hose is in. -/
theorem fieldRow_expires {act : State → State} {s : State} {h : Hose} {st : HoseState} {timer : Option Nat} {t : Nat}
    (running : s.supply.power = .running) (state : h.state = st) (runs : timer = some t) :
    fieldRow (fun s => expire (runsIn st h timer) act s) s = happens (act (reachInstant t s)) := by
  rw [fieldRow_running running, runsIn, if_pos state, runs, expire_some]

theorem lastPulses_eq (c : Channel) : lastPulses c = c.result.elim 0 WindowResult.n := by
  unfold lastPulses
  cases c.result <;> rfl

theorem settleExpires_still {id : HoseId} {s : State} (quietNow : (s.channels.get id.meter).n = 0)
    (quietLast : lastPulses (s.channels.get id.meter) = 0) : settleExpires id s = closeSession id none s := by
  simp [settleExpires, stillMoving, quietNow, quietLast]

/-- R127: the meter still moves, VALVE is reported and the hose will be LOCKED. -/
theorem settleExpires_moving {id : HoseId} {s : State} (stopping : (s.hoses.get id).state = .stopping)
    (moves : 0 < (s.channels.get id.meter).n ∨ 0 < lastPulses (s.channels.get id.meter)) :
    ∀ u, u = report (.hose id) .valve id.number (lastPulses (s.channels.get id.meter)) s →
      settleExpires id s = closeSession id none
        { u with hoses := u.hoses.set id { u.hoses.get id with stopFaultFound := true } } := by
  rintro _ rfl
  have moving : stillMoving (s.channels.get id.meter) = true := by simpa [stillMoving] using moves
  have still : ((reportValve id s).hoses.get id).state = .stopping := by simpa [reportValve] using stopping
  rw [settleExpires, if_pos moving, stopFault_stopping rfl _ still]
  rfl

/-- Settles O35: each expiry by its timer; the settle timer by whether the meter still moves. -/
theorem sessionTimersFollowR93R127 : Obligations.SessionTimersFollowR93R127 := by
  intro id h s t reached running at_h reachedIs
  subst at_h reachedIs
  refine ⟨fun referred runs => ?_, fun ready runs => ?_, fun paused runs => ?_, fun stopping runs last lastIs => ?_⟩
  · exact (exec_referDeadlineExpiry id s).trans (fieldRow_expires running referred runs)
  · exact (exec_readyTimerExpiry id s).trans (fieldRow_expires running ready runs)
  · exact (exec_resumeTimerExpiry id s).trans (fieldRow_expires running paused runs)
  · have settles : exec (.settleTimerExpiry id) s = happens (settleExpires id (reachInstant t s)) :=
      (exec_settleTimerExpiry id s).trans (fieldRow_expires running stopping runs)
    rw [← lastPulses_eq] at lastIs
    subst lastIs
    rw [settles]
    exact ⟨fun quietNow quietLast => congrArg happens (settleExpires_still quietNow quietLast),
      fun moves u uIs => congrArg happens (settleExpires_moving (s := reachInstant t s) stopping moves u uIs)⟩

/-! ### Emergency stop and park brake (R93, R103, R124, R162) -/

section
variable {id : HoseId} {h : Hose} {s : State} (at_id : s.hoses.get id = h)
include at_id

theorem stopSession_delivering (cause : StopCause)
    (delivers : [HoseState.flowing, .slowing, .paused].contains h.state = true) :
    stopSession id cause s = enterStopping id cause false s := by
  rcases delivering_cases delivers with is | is | is <;> simp only [stopSession, at_id, is]

theorem stopSession_rests (cause : StopCause)
    (rests : [HoseState.ready, .flowing, .slowing, .paused].contains h.state = false) :
    stopSession id cause s = s := by
  unfold stopSession
  rw [at_id]
  generalize h.state = st at rests
  cases st <;> first | rfl | cases rests

theorem restHose_eq : restHose id s = setHose id { h with outputs := restOutputs h.outputs } s := by
  subst at_id
  rfl

theorem restHose_state : ((restHose id s).hoses.get id).state = h.state := by simp [restHose_eq at_id]

theorem endRewind_restHose_state : ((endRewind id .interrupted (restHose id s)).hoses.get id).state = h.state := by
  rw [endRewind_state, restHose_state at_id]

/-- The emergency stop at a hose that neither waits nor proves is its stop of an open session. -/
theorem estopHose_stops
    (stops : [HoseState.referred, .proveReady, .proveFlowing, .proveHeld].contains h.state = false) :
    estopHose id s = stopSession id .emergency (endRewind id .interrupted (restHose id s)) := by
  simp only [estopHose, endRewind_restHose_state at_id]
  generalize h.state = st at stops
  cases st <;> first | rfl | cases stops

/-- Without a request, a session that delivers or a run, only outputs and rewind are concerned. -/
theorem estopHose_rests (rests : [HoseState.idle, .complete, .locked, .outOfService, .stopping].contains h.state = true) :
    estopHose id s = endRewind id .interrupted (restHose id s) := by
  have quiet : [HoseState.referred, .proveReady, .proveFlowing, .proveHeld].contains h.state = false
      ∧ [HoseState.ready, .flowing, .slowing, .paused].contains h.state = false := by
    revert rests
    cases h.state <;> decide
  rw [estopHose_stops at_id quiet.1, stopSession_rests rfl _ ((endRewind_restHose_state at_id).symm ▸ quiet.2)]

/-- A running rewind is interrupted. -/
theorem endRewind_restHose (reels : h.outputs.reel = true) : endRewind id .interrupted (restHose id s) =
    raise (.doneHose id)
      (setHose id
        { h with
          outputs := { h.outputs with pump := false, manifold := none, mainValve := false, staged := 0, reel := false }
          rewindTimer := none, rewindOutcome := .interrupted } s) := by
  rw [endRewind, stopRewind_restHose, restHose_eq at_id]
  simp [stilledHose, restOutputs, reels, at_id]

section
variable (still : h.outputs.reel = false)
include still

theorem endRewind_restHose_still : endRewind id .interrupted (restHose id s) = restHose id s :=
  endRewind_still _ (by simpa [restHose_eq at_id, restOutputs] using still)

theorem estopHose_referred (referred : h.state = .referred) :
    estopHose id s = endReferred id .estop (restHose id s) := by
  simp only [estopHose, endRewind_restHose_still at_id still, restHose_state at_id, referred]

/-- R162: a run ends by the emergency stop unless its result is being written. -/
theorem estopHose_proving
    (runs : h.state = .proveReady ∨ h.state = .proveFlowing ∨ (h.state = .proveHeld ∧ judged id s = false)) :
    estopHose id s = endRun id .emergency .idle (restHose id s) := by
  have writes : judged id (restHose id s) = judged id s := rfl
  rcases runs with is | is | ⟨is, free⟩
  · simp only [estopHose, endRewind_restHose_still at_id still, restHose_state at_id, is]
  · simp only [estopHose, endRewind_restHose_still at_id still, restHose_state at_id, is]
  · simp [estopHose, endRewind_restHose_still at_id still, restHose_state at_id, is, writes, free]

theorem estopHose_judged (held : h.state = .proveHeld) (writing : judged id s = true) :
    estopHose id s = restHose id s := by
  have writes : judged id (restHose id s) = judged id s := rfl
  simp [estopHose, endRewind_restHose_still at_id still, restHose_state at_id, held, writes, writing]

end

/-- R124: the brake at a hose with an open session. -/
theorem brakeHose_open (isOpen : openState h.state = true) :
    brakeHose id s = stopSession id .vehicleMoved (restHose id s) := by
  have notReferred : h.state ≠ .referred := fun is => by simp [is, openState] at isOpen
  simp [brakeHose, at_id, notReferred, isOpen]

theorem brakeHose_rests (rests : [HoseState.idle, .complete, .locked, .outOfService, .proveReady, .proveFlowing,
    .proveHeld].contains h.state = true) : brakeHose id s = s := by
  unfold brakeHose
  rw [at_id]
  generalize h.state = st at rests
  cases st <;> first | rfl | cases rests

end

/-- Settles O36: the two switches at the hoses in turn, then one hose by its state. -/
theorem emergencyAndBrakeFollowR103R124 : Obligations.EmergencyAndBrakeFollowR103R124 := by
  intro s running
  refine ⟨fun asserted moved moves movedIs => ?_, fun applied moved moves movedIs => ?_,
    fun id h rested at_id restedIs => ?_⟩
  · have acts : exec (.emergencyStop asserted) s =
        happens (if asserted then estopAsserted moved else tryOpenInlet moved) := by
      rw [movedIs]
      exact congrArg Host.Outcome.next (switchStep_running moves running)
    rw [acts]
    cases asserted <;> rfl
  · have acts : exec (.parkBrake applied) s = happens (if applied then moved else brakeReleased moved) := by
      rw [movedIs]
      exact congrArg Host.Outcome.next (switchStep_running moves running)
    rw [acts]
    cases applied <;> rfl
  · obtain rfl : rested = restHose id s := restedIs.trans (restHose_eq at_id).symm
    have at_rested : (restHose id s).hoses.get id = { h with outputs := restOutputs h.outputs } := by
      simp [restHose_eq at_id]
    refine ⟨fun still => ?_, fun reels rests => ?_, fun referred => ?_, fun ready => ?_, fun delivers => ?_,
      fun stopping => ?_, fun rests => brakeHose_rests at_id rests⟩
    · have quiet := endRewind_restHose_still at_id still
      refine ⟨estopHose_referred at_id still, fun ready => ?_, fun delivers => ?_,
        fun runs => estopHose_proving at_id still (runs.imp_right .inl),
        fun held => ⟨fun free => estopHose_proving at_id still (.inr (.inr ⟨held, not_judged free⟩)),
          fun c r writing => estopHose_judged at_id still held (judged_iff.2 ⟨c, r, writing⟩)⟩, fun rests => ?_⟩
      · rw [estopHose_stops at_id (by rw [ready]; rfl), quiet]
        simp only [stopSession, at_rested, ready]
      · rw [estopHose_stops at_id (not_waiting_of_delivering delivers), quiet, stopSession_delivering at_rested _ delivers]
      · rw [estopHose_rests at_id rests, quiet]
    · rw [estopHose_rests at_id (by revert rests; cases h.state <;> decide), endRewind_restHose at_id reels]
      rfl
    · simp [brakeHose, at_id, referred]
    · rw [brakeHose_open at_id (by rw [ready]; rfl)]
      simp only [stopSession, at_rested, ready]
    · rw [brakeHose_open at_id (open_of_delivering delivers), stopSession_delivering at_rested _ delivers]
    · rw [brakeHose_open at_id (by rw [stopping]; rfl), stopSession_rests at_rested _ (by simp [stopping])]

end Sys2Proof.Machine
end

section
/-! PROOFS. The hold: candidates, the terms of the unreduced hold, the compartment selected by stock, and the statement. -/

namespace Sys2Proof.Machine

/-! ### Candidates and terms (R84, R85) -/

/-- R85: the candidates are the preferred compartments IN_SERVICE with a permitted grade. -/
theorem candidates_eq (prefs : List CompId) (grades : GradeSet) (s : State) : candidates prefs grades s =
    prefs.filterMap (fun c => (s.compartments.get c).grade.bind (fun g =>
      if inSet grades g = true ∧ (s.compartments.get c).state = .inService then some (c, g) else none)) := by
  refine congrArg (prefs.filterMap ·) (funext fun c => ?_)
  unfold candidateGrade
  cases (s.compartments.get c).grade with
  | none => rfl
  | some g =>
    by_cases permitted : inSet grades g = true ∧ (s.compartments.get c).state = .inService
    · simp [permitted]
    · have closed : (inSet grades g && (s.compartments.get c).state == .inService) = false := by simpa using permitted
      simp [permitted, closed]

theorem creditTerm_eq (a : AccountRecord) (price : Nat) : creditTerm a price =
    if price = 0 then none else some (((a.limit : Int) - a.balance - a.held).toNat / price) := by
  have headroom : ((a.limit : Int) - a.balance - a.held).toNat = a.limit - a.balance - a.held := by omega
  rw [headroom, creditTerm]

theorem least_eq (n : Nat) (o : Option Nat) : least n o = o.toList.foldl min n := by cases o <;> rfl

/-- R84: the unreduced hold is the least of LIMIT, preset, ALLOWANCE and CREDIT, of those that are present. -/
theorem holdAt_eq (t : Terms) (a : AccountRecord) (price : Nat) : holdAt t a price =
    (t.preset.toList ++ t.allowance.toList ++ (creditTerm a price).toList).foldl min t.limit := by
  have limits : limitTerm t = t.preset.toList.foldl min t.limit := by
    unfold limitTerm
    cases t.preset <;> rfl
  rw [holdAt, least_eq, least_eq, limits, List.foldl_append, List.foldl_append]

/-! ### Selection by stock (R85) -/

/-- No candidate after `p` has more available stock. -/
theorem largestStock_stays {s : State} {p : CompId × Grade} {rest : List (CompId × Grade)}
    (le : ∀ q ∈ rest, availableAt q.1 s ≤ availableAt p.1 s) : largestStock s p rest = p := by
  induction rest with
  | nil => rfl
  | cons q rest ih =>
    rw [largestStock, if_neg (not_lt.2 (le q (by simp)))]
    exact ih fun r mem => le r (by simp [mem])

/-- The largest available stock, the earliest candidate on a tie. -/
theorem largestStock_finds {s : State} {x : CompId × Grade} {front back : List (CompId × Grade)} {p : CompId × Grade}
    (first : availableAt p.1 s < availableAt x.1 s) (less : ∀ q ∈ front, availableAt q.1 s < availableAt x.1 s)
    (le : ∀ q ∈ back, availableAt q.1 s ≤ availableAt x.1 s) : largestStock s p (front ++ x :: back) = x := by
  induction front generalizing p with
  | nil =>
    rw [List.nil_append, largestStock, if_pos first]
    exact largestStock_stays le
  | cons q front ih =>
    have others : ∀ r ∈ front, availableAt r.1 s < availableAt x.1 s := fun r mem => less r (by simp [mem])
    rw [List.cons_append, largestStock]
    split_ifs
    · exact ih (less q (by simp)) others
    · exact ih first others

/-! ### The hold by the candidates (R85, R86) -/

section
variable {id : HoseId} {t : Terms} {a : AccountRecord} {s : State} {front back : List (CompId × Grade)} {c : CompId}
  {g : Grade}

theorem settleHold_none (none : candidates (s.hoses.get id).setup.preference t.grades s = []) :
    settleHold id t a s = .error .wrongGrade := by
  simp only [settleHold, none]

variable (listed : candidates (s.hoses.get id).setup.preference t.grades s = front ++ (c, g) :: back)
include listed

/-- The first candidate whose available stock covers its unreduced hold. -/
theorem settleHold_covers
    (short : ∀ p ∈ front, availableAt p.1 s < (holdAt t a (priceFor a p.2 s) : Int) * 1000000)
    (covers : (holdAt t a (priceFor a g s) : Int) * 1000000 ≤ availableAt c s) :
    settleHold id t a s =
      if (s.hoses.get id).setup.minFill ≤ holdAt t a (priceFor a g s) then
        .ok { comp := c, grade := g, hold := holdAt t a (priceFor a g s) }
      else .error (limitingReason t a (priceFor a g s)) := by
  have found : firstCovering t a s (front ++ (c, g) :: back) = some (c, g) := by
    refine List.find?_eq_some_iff_append.2 ⟨by simpa [Config.litre] using covers, front, back, rfl, fun p mem => ?_⟩
    simpa [Config.litre] using short p mem
  cases front with
  | nil =>
    rw [List.nil_append] at listed found
    simp only [settleHold, listed, found, ← not_le, ite_not]
  | cons p front =>
    rw [List.cons_append] at listed found
    simp only [settleHold, listed, found, ← not_le, ite_not]

/-- No candidate covers its unreduced hold: the largest available stock, in whole litres. -/
theorem settleHold_reduces
    (short : ∀ p ∈ front ++ (c, g) :: back, availableAt p.1 s < (holdAt t a (priceFor a p.2 s) : Int) * 1000000)
    (less : ∀ p ∈ front, availableAt p.1 s < availableAt c s) (le : ∀ p ∈ back, availableAt p.1 s ≤ availableAt c s) :
    settleHold id t a s =
      if (s.hoses.get id).setup.minFill ≤ (availableAt c s).toNat / 1000000 then
        .ok { comp := c, grade := g, hold := (availableAt c s).toNat / 1000000 }
      else .error .noStock := by
  have found : firstCovering t a s (front ++ (c, g) :: back) = none :=
    List.find?_eq_none.2 fun p mem => by simpa [Config.litre] using short p mem
  cases front with
  | nil =>
    have largest : largestStock s (c, g) back = (c, g) := largestStock_stays le
    rw [List.nil_append] at listed found
    simp only [settleHold, listed, found, largest, ← not_le, ite_not]
    rfl
  | cons p front =>
    have largest : largestStock s p (front ++ (c, g) :: back) = (c, g) :=
      largestStock_finds (less p (by simp)) (fun q mem => less q (by simp [mem])) le
    rw [List.cons_append] at listed found
    simp only [settleHold, listed, found, largest, ← not_le, ite_not]
    rfl

end

/-- Settles O22: the statement's terms are the model's, then the hold by the candidates. -/
theorem holdFollowsR84R86 : Obligations.HoldFollowsR84R86 := by
  intro id t a s cs credit full stock csIs creditIs fullIs stockIs
  rw [← candidates_eq] at csIs
  have creditEq (g) : credit g = creditTerm a (priceFor a g s) := (creditIs g).trans (creditTerm_eq a _).symm
  have fullEq (g) : full g = holdAt t a (priceFor a g s) := by rw [fullIs, creditEq, holdAt_eq]
  have stockEq (c) : stock c = availableAt c s := stockIs c
  subst csIs
  simp only [fullEq, creditEq, stockEq]
  exact ⟨settleHold_none, fun front c g back listed short covers => settleHold_covers listed short covers,
    fun front c g back listed short less le => settleHold_reduces listed (listed ▸ short) less le⟩

end Sys2Proof.Machine
end

section
/-! PROOFS. The checks of a request for a machine's tank as one list, the judgement of tags and of manual requests, what an
authorisation does with it, and the two statements. -/

namespace Sys2Proof.Machine

/-! ### The checks in order (R80) -/

/-- Checks 1 to 5: the hose. -/
def hoseChecks (id : HoseId) (s : State) : List (Bool × Reason) :=
  [(!s.field.levels.estop, .estop), (s.field.levels.park, .vehicleMoving),
    ((s.hoses.get id).state != .outOfService && (s.hoses.get id).state != .locked && !hoseStopValid id s,
      .hoseUnavailable),
    ((s.store.meters.get id.meter).calibrated, .uncalibrated), ((s.hoses.get id).state != .complete, .uncollected)]

/-- Check 6: the record, which verifies. -/
def recordChecks (m : MachineRecord) : List (Bool × Reason) :=
  [(m.state != .retiring, .retired), (m.state != .quarantined, .corrupt), (m.state != .suspended, .suspended)]

/-- Checks 7 to 9: the tank's link, the class, the account, which verifies. -/
def tankChecks (id : HoseId) (tank : TankKind) (m : MachineRecord) (a : AccountRecord) : List (Bool × Reason) :=
  [((linkOf tank m).isNone, .inSession), ((tank == .fluid) == (id == .h3), .misfuel),
    (a.state == .opened, .accountStopped)]

theorem hoseCheck_eq (id : HoseId) (s : State) : hoseCheck id s = firstFailing (hoseChecks id s) := by
  refine ite_eq_firstFailing (by simp) (ite_eq_firstFailing (by simp) (ite_eq_firstFailing ?_
    (ite_eq_firstFailing (by simp [calibrated]) (ite_eq_firstFailing (by simp) rfl))))
  simp [hoseUnavailable, or_iff_not_imp_left]

theorem checkRecord_agrees {slot : Nat} {m : MachineRecord} (s : State) (agrees : m.checkWord = machineCheck m) :
    checkRecord slot m s = (firstFailing (recordChecks m), s) := by
  unfold checkRecord recordChecks
  rw [verifyMachine_agrees s agrees]
  cases m.state <;> rfl

/-- Check 6 of an ACTIVE or SUSPENDED record that fails verification (R23). -/
theorem checkRecord_fails {slot : Nat} {m : MachineRecord} (s : State) (live : m.state = .active ∨ m.state = .suspended)
    (differs : m.checkWord ≠ machineCheck m) : checkRecord slot m s = (some .corrupt, corruptMachine slot m s) := by
  rw [checkRecord, if_neg (not_closed_of_live live).1, verifyMachine_quarantines s differs live]

/-! ### Checks, then the hold -/

/-- The first check that fails, or what the hold computation settles. -/
def checkedHold (checks : List (Bool × Reason)) (id : HoseId) (t : Terms) (a : AccountRecord) (s : State) :
    Except Reason Choice :=
  match firstFailing checks with
  | some r => .error r
  | none => settleHold id t a s

/-- The verdict on a request whose terms are `t`. -/
def verdictOf (t : Terms) : Except Reason Choice → Verdict
  | .error r => .refused r
  | .ok c => .granted t c

section
variable {id : HoseId} {t : Terms} {a : AccountRecord} {s : State} {checks : List (Bool × Reason)}

theorem checkedHold_fails {r : Reason} (more : List (Bool × Reason)) (first : firstFailing checks = some r) :
    checkedHold (checks ++ more) id t a s = .error r := by
  simp only [checkedHold, firstFailing_append, first, Option.some_or]

theorem checkedHold_holds (more : List (Bool × Reason)) (first : firstFailing checks = none) :
    checkedHold (checks ++ more) id t a s = checkedHold more id t a s := by
  simp only [checkedHold, firstFailing_append, first, Option.none_or]

/-- A check that holds at the end of the list changes nothing. -/
theorem checkedHold_true (r : Reason) : checkedHold (checks ++ [(true, r)]) id t a s = checkedHold checks id t a s := by
  simp [checkedHold, firstFailing_append]

/-- The verdict by the first check that fails and the hold computation. -/
theorem verdictOf_checkedHold : verdictOf t (checkedHold checks id t a s) =
    match firstFailing checks with
    | some r => .refused r
    | none =>
      match settleHold id t a s with
      | .error r => .refused r
      | .ok c => .granted t c := by
  unfold checkedHold
  cases firstFailing checks with
  | some r => rfl
  | none => cases settleHold id t a s <;> rfl

/-- A branch that refuses is the next check of the list. -/
theorem ite_eq_verdict {p : Prop} [Decidable p] {b : Bool} {r : Reason} {rest : Verdict × State} (fails : p ↔ b = false)
    (holds : b = true → rest = (verdictOf t (checkedHold checks id t a s), s)) :
    (if p then (.refused r, s) else rest) = (verdictOf t (checkedHold ((b, r) :: checks) id t a s), s) := by
  cases b with
  | false => simp [fails, checkedHold, verdictOf]
  | true => simpa [fails, checkedHold] using holds rfl

variable (found : tableGet s.accounts t.account = some a) (agrees : a.checkWord = accountCheck a)
include found agrees

/-- Check 9 and the hold. -/
theorem judgeTerms_agrees :
    judgeTerms id t s = (verdictOf t (checkedHold [(a.state == .opened, .accountStopped)] id t a s), s) := by
  rw [judgeTerms, checkAccount_agrees found agrees]
  cases opened : a.state == .opened with
  | false => rfl
  | true =>
    simp only [accountAt, found, checkedHold, firstFailing_cons, firstFailing_nil, if_true]
    cases settleHold id t a s <;> rfl

/-- Checks 7 to 9, for a manual request check 10, and the hold. -/
theorem judgeTank_agrees (manual : Bool) (tank : TankKind) (m : MachineRecord) : judgeTank id manual t tank m s =
    (verdictOf t (checkedHold (tankChecks id tank m a ++ [(!manual || m.manualPermitted, .manualRefused)]) id t a s), s) := by
  refine ite_eq_verdict (by simp) fun _ => ite_eq_verdict (by simp [fluidHose_eq]) fun _ => ?_
  have permitted : (!manual || m.manualPermitted) = !(manual && !m.manualPermitted) := by simp
  rw [checkAccount_agrees found agrees, judgeTerms_agrees found agrees, permitted]
  cases manual && !m.manualPermitted <;> cases a.state == .opened <;> rfl

end

/-! ### The judgement of a machine's tank (R80, R82, R83) -/

theorem machineTerms_eq (kind : IdentityKind) (tag preset : Option Nat) (slot : Nat) (tank : TankKind) (k : Tank)
    (m : MachineRecord) : machineTerms kind tag preset slot tank k m =
      { kind := kind, tag := tag, machine := some (slot, tank), account := m.account, grades := k.grades,
        limit := k.capacity, preset := preset, ceiling := k.ceiling,
        allowance := match tank with
          | .fuel => some (minus (m.allowance * 1000000 + m.overrun) (m.used + m.held) / 1000000)
          | .fluid => none } := by
  cases tank <;> rfl

theorem tankOf_eq {tank : TankKind} {k : Tank} {m : MachineRecord} (fuel : tank = .fuel → m.fuel = some k)
    (fluid : tank = .fluid → m.fluid = some k) : tankOf tank m = some k := by
  cases tank with
  | fuel => exact fuel rfl
  | fluid => exact fluid rfl

section
variable {id : HoseId} {slot : Nat} {tank : TankKind} {k : Tank} {m : MachineRecord} {a : AccountRecord} {s : State}
  (agrees : m.checkWord = machineCheck m) (hasTank : tankOf tank m = some k)
  (found : tableGet s.accounts m.account = some a) (accountAgrees : a.checkWord = accountCheck a)
include agrees hasTank found accountAgrees

/-- R80: a tag of a machine's tank, whose records verify, by checks 1 to 9 in order and the hold. -/
theorem judgeTag_tank {tag : Nat} (indexed : tableGet s.tagIndex tag = some { slot := slot, tank := tank })
    (at_slot : tableGet s.machines slot = some m) :
    judgeTag id tag s =
      (verdictOf (machineTerms .tag (some tag) none slot tank k m)
        (checkedHold (hoseChecks id s ++ (recordChecks m ++ tankChecks id tank m a)) id
          (machineTerms .tag (some tag) none slot tank k m) a s), s) := by
  have resolved : resolve tag s = .machine { slot := slot, tank := tank } := (resolve_machine_iff ..).2 indexed
  unfold judgeTag
  rw [hoseCheck_eq]
  cases first : firstFailing (hoseChecks id s) with
  | some r => rw [checkedHold_fails _ first]; rfl
  | none =>
    simp only [checkedHold_holds _ first, resolved, machineAt, at_slot, checkRecord_agrees s agrees]
    cases record : firstFailing (recordChecks m) with
    | some r => rw [checkedHold_fails _ record]; rfl
    | none =>
      simp only [checkedHold_holds _ record, hasTank]
      exact (judgeTank_agrees found accountAgrees false tank m).trans (by rw [Bool.not_false, Bool.true_or, checkedHold_true])

/-- R82: a manual request for a tank of machine `number`, whose records verify, by checks 1 to 10 in order and the hold. -/
theorem judgeManual_tank {number : Nat} {preset : Option Nat}
    (held : tableFind (fun _ r => r.number == number) s.machines = some (slot, m)) :
    judgeManual id number tank preset s =
      (verdictOf (machineTerms .manual none preset slot tank k m)
        (checkedHold (hoseChecks id s ++ (recordChecks m ++ (tankChecks id tank m a
          ++ [(m.manualPermitted, .manualRefused)]))) id (machineTerms .manual none preset slot tank k m) a s), s) := by
  unfold judgeManual
  rw [hoseCheck_eq]
  cases first : firstFailing (hoseChecks id s) with
  | some r => rw [checkedHold_fails _ first]; rfl
  | none =>
    simp only [checkedHold_holds _ first, held, hasTank, checkRecord_agrees s agrees]
    cases record : firstFailing (recordChecks m) with
    | some r => rw [checkedHold_fails _ record]; rfl
    | none =>
      rw [checkedHold_holds _ record]
      exact judgeTank_agrees found accountAgrees true tank m

end

/-! ### The judgement of a tag that is not in the index (R80, R90) -/

section
variable {id : HoseId} {tag : Nat} {s : State} (clear : hoseCheck id s = none)
include clear

theorem judgeTag_default {p : Policy} (resolved : resolve tag s = .default p) : judgeTag id tag s =
    (if p = .refer then .referred { tag := tag, entry := none } else .refused .unknownTag, s) := by
  simp only [judgeTag, clear, resolved]
  split_ifs <;> rfl

section
variable {i : Nat} {e : RangeEntry} (resolved : resolve tag s = .range i e)
include resolved

theorem judgeTag_refuse (policy : e.policy = .refuse) : judgeTag id tag s = (.refused .unknownTag, s) := by
  simp only [judgeTag, clear, resolved, policy]

theorem judgeTag_refer (policy : e.policy = .refer) :
    judgeTag id tag s = (.referred { tag := tag, entry := some i }, s) := by
  simp only [judgeTag, clear, resolved, policy]

/-- Checks 8 and 9 and the hold, with the entry's terms (R83). -/
theorem judgeTag_allow (policy : e.policy = .allow) {a : AccountRecord} (found : tableGet s.accounts e.account = some a)
    (agrees : a.checkWord = accountCheck a) : judgeTag id tag s =
      (verdictOf (rangeTerms tag e)
        (checkedHold [((e.grades == ⟨false, false, true⟩) == (id == .h3), .misfuel), (a.state == .opened, .accountStopped)]
          id (rangeTerms tag e) a s), s) := by
  simp only [judgeTag, clear, resolved, policy]
  exact ite_eq_verdict (by simp [fluidSet_eq, fluidHose_eq]) fun _ => judgeTerms_agrees found agrees

end

end

/-- Settles O21: tags of machine tanks by their list of checks, the others by what they resolve to, and the three verdicts. -/
theorem tagChecksFollowR80 : Obligations.TagChecksFollowR80 := by
  refine ⟨fun id tag slot kind k m a s indexed at_slot agrees found accountAgrees fuel fluid => ?_,
    fun id tag s clear => ⟨fun i e resolved => ⟨judgeTag_refuse clear resolved, judgeTag_refer clear resolved,
      fun policy a found agrees => ?_⟩, fun p resolved => judgeTag_default clear resolved⟩,
    machineTerms_eq, fun id tag s u h at_id => ⟨fun r judged => ?_, fun w judged => ?_, fun t c judged => ?_⟩⟩
  · exact (judgeTag_tank agrees (tankOf_eq fuel fluid) found accountAgrees indexed at_slot).trans
      (congrArg (·, s) verdictOf_checkedHold)
  · exact (judgeTag_allow clear resolved policy found agrees).trans (congrArg (·, s) verdictOf_checkedHold)
  · subst at_id
    simp only [authoriseTag, judged]
    rfl
  · subst at_id
    simp only [authoriseTag, judged]
    rfl
  · simp only [authoriseTag, judged]

/-! ### AUTHORISE MANUAL (R82) -/

theorem hoseEngaged_iff {st : HoseState} :
    hoseEngaged st = true ↔ st = .referred ∨ openState st = true ∨ provingState st = true := by
  simp [hoseEngaged, or_assoc]

/-- A request, an open session or a run, as the statement lists their states. -/
theorem hoseEngaged_eq (st : HoseState) : hoseEngaged st =
    [HoseState.referred, .ready, .flowing, .slowing, .paused, .stopping, .proveReady, .proveFlowing,
      .proveHeld].contains st := by cases st <;> rfl

/-- The states from which an authorisation starts are the others. -/
theorem startsFrom_eq (st : HoseState) : startsFrom.contains st = !hoseEngaged st := by cases st <;> rfl

/-- A machine record's quarantine and its report leave hoses and timebase as they were. -/
theorem corruptMachine_kept (slot : Nat) (m : MachineRecord) (s : State) :
    (corruptMachine slot m s).hoses = s.hoses ∧ (corruptMachine slot m s).timebase = s.timebase := by
  simp [corruptMachine]

/-- Check 6 of a manual request fails (R82, R23). -/
theorem judgeManual_corrupt {id : HoseId} {number slot : Nat} {tank : TankKind} {preset : Option Nat} {m : MachineRecord}
    {s : State} (clear : hoseCheck id s = none)
    (held : tableFind (fun _ r => r.number == number) s.machines = some (slot, m)) (hasTank : (tankOf tank m).isSome = true)
    (live : m.state = .active ∨ m.state = .suspended) (differs : m.checkWord ≠ machineCheck m) :
    judgeManual id number tank preset s = (.refused .corrupt, corruptMachine slot m s) := by
  obtain ⟨k, tankIs⟩ := Option.isSome_iff_exists.1 hasTank
  simp only [judgeManual, clear, held, tankIs, checkRecord_fails s live differs]

/-- No record of the number, or none with the tank. -/
theorem judgeManual_noRecord {id : HoseId} {number : Nat} {tank : TankKind} {preset : Option Nat} {s : State}
    (clear : hoseCheck id s = none) (lacks : tableFind (fun _ r => r.number == number) s.machines = none
      ∨ ∃ slot m, tableFind (fun _ r => r.number == number) s.machines = some (slot, m) ∧ tankOf tank m = none) :
    judgeManual id number tank preset s = (.refused .noRecord, s) := by
  rcases lacks with none | ⟨slot, m, held, noTank⟩
  · simp only [judgeManual, clear, none]
  · simp only [judgeManual, clear, held, noTank]

section
variable {n number : Nat} {tank : TankKind} {preset : Option Nat} {id : HoseId} {s : State} (named : hoseOf n = some id)
  (low : 1 ≤ number) (high : number ≤ 999999) (presetFits : ∀ p, preset = some p → 1 ≤ p ∧ p ≤ 20000)
include low high presetFits

theorem manualFormed : (inRange 1 999999 number && inRange 1 20000 (preset.getD 1)) = true := by
  rw [Bool.and_eq_true, inRange_iff, inRange_iff]
  refine ⟨⟨low, high⟩, ?_⟩
  cases preset with
  | none => decide
  | some p => exact presetFits p rfl

include named

theorem doAuthoriseManual_engaged (busy : hoseEngaged (s.hoses.get id).state = true) :
    doAuthoriseManual n number tank preset s = answer .state s := by
  simp only [doAuthoriseManual, named, manualFormed low high presetFits, Bool.not_true, if_pos (hoseEngaged_iff.1 busy)]
  rfl

section
variable (free : hoseEngaged (s.hoses.get id).state = false)
include free

/-- A refusal: its reason, and the last refusal written (R81). -/
theorem doAuthoriseManual_refuses {r : Reason} {u : State} (judged : judgeManual id number tank preset s = (.refused r, u)) :
    doAuthoriseManual n number tank preset s =
      reply (if r = .corrupt then .corrupt else .ok) (u8 1 ++ u8 (reasonCode r)) (writeRefusal id none r u) := by
  have notEngaged := mt hoseEngaged_iff.2 (Bool.eq_false_iff.1 free)
  simp only [doAuthoriseManual, named, manualFormed low high presetFits, Bool.not_true, if_neg notEngaged, judged]
  rfl

theorem doAuthoriseManual_grants {t : Terms} {c : Choice} {u : State}
    (judged : judgeManual id number tank preset s = (.granted t c, u)) :
    doAuthoriseManual n number tank preset s = authorised id (openSession id t c u) := by
  have notEngaged := mt hoseEngaged_iff.2 (Bool.eq_false_iff.1 free)
  simp only [doAuthoriseManual, named, manualFormed low high presetFits, Bool.not_true, if_neg notEngaged, judged]
  rfl

end

end

/-- The figures of an AUTHORISED outcome, of the hose's session where it has one (R82). -/
theorem authorisedBytes_eq (id : HoseId) (u : State) : authorisedBytes id u =
    (u.hoses.get id).session.toList.flatMap (fun x =>
      u16 x.number ++ u16 x.hold ++ u8 x.compartment.number ++ u8 (gradeCode x.grade) ++ u32 x.price ++ u16 x.setPoint) := by
  unfold authorisedBytes
  cases (u.hoses.get id).session <;> simp

/-- Settles O24: an engaged hose answers STATE; otherwise the verdict decides, of records that verify by the list of checks,
of the others by the look-up. -/
theorem authoriseManualFollowsR82 : Obligations.AuthoriseManualFollowsR82 := by
  refine ⟨fun n id number slot tank preset k m a s ready named low high presetFits held agrees found accountAgrees fuel
      fluid => ⟨fun busy => ?_, fun starts verdict verdictIs => ?_⟩,
    fun n id number tank preset s refused ready named low high presetFits idle clear refusedIs => ?_⟩
  · exact (exec_authoriseManual n number tank preset s).trans (hostRow_answers ready
      (doAuthoriseManual_engaged named low high presetFits ((hoseEngaged_eq _).trans busy)))
  · have free : hoseEngaged (s.hoses.get id).state = false := by
      rwa [← Bool.not_eq_true', ← startsFrom_eq]
    have judged : judgeManual id number tank preset s =
        (verdictOf (machineTerms .manual none preset slot tank k m) verdict, s) :=
      (judgeManual_tank agrees (tankOf_eq fuel fluid) found accountAgrees held).trans
        (congrArg (fun v => (verdictOf _ v, s)) verdictIs.symm)
    refine ⟨fun r is => ?_, fun c u is uIs => ?_⟩ <;>
      refine (exec_authoriseManual n number tank preset s).trans (hostRow_answers ready ?_) <;> subst is
    · exact doAuthoriseManual_refuses named low high presetFits free judged
    · rw [uIs, ← authorisedBytes_eq]
      exact doAuthoriseManual_grants named low high presetFits free judged
  · have free : hoseEngaged (s.hoses.get id).state = false := by rw [idle]; rfl
    refine ⟨fun lacks => ?_, fun slot m held hasTank live differs => ?_⟩ <;>
      refine (exec_authoriseManual n number tank preset s).trans (hostRow_answers ready ?_) <;> rw [refusedIs]
    · exact doAuthoriseManual_refuses named low high presetFits free (judgeManual_noRecord clear lacks)
    · obtain ⟨hoses, timebase⟩ := corruptMachine_kept slot m s
      refine (doAuthoriseManual_refuses named low high presetFits free
        (judgeManual_corrupt clear held hasTank live differs)).trans ?_
      simp only [writeRefusal, setHose, siteTime, hoses, timebase]
      rfl

end Sys2Proof.Machine
end

section
/-! PROOFS. DRIVE PERMIT (R110): its law says that the level is the one evaluated last, and every form of row either
evaluates it afresh or leaves level and conditions as they were. -/

namespace Sys2Proof.Machine

/-! ### The law as one equation -/

/-- The level a running controller gives DRIVE PERMIT is the one its conditions call for. -/
def PermitCurrent (s : State) : Prop := s.supply.power = .running → s.drivePermit = permitConditions s

theorem openState_eq (st : HoseState) :
    openState st = [HoseState.ready, .flowing, .slowing, .paused, .stopping].contains st := by cases st <;> rfl

/-- No order is LOADING or SETTLING. -/
theorem inletBusy_eq_false (s : State) :
    inletBusy s = false ↔ ∀ p ∈ s.loads.orders, p.2.state ≠ .loading ∧ p.2.state ≠ .settling := by
  simp [inletBusy]

theorem forall_hose {p : HoseId → Prop} : (∀ id, p id) ↔ p .h1 ∧ p .h2 ∧ p .h3 :=
  ⟨fun h => ⟨h _, h _, h _⟩, fun ⟨h1, h2, h3⟩ id => by cases id <;> assumption⟩

/-- R110: what the evaluation finds, condition by condition. -/
theorem permitConditions_iff (s : State) : permitConditions s = true ↔
    (∀ id : HoseId, s.field.levels.stow.get id = true)
    ∧ (∀ id : HoseId,
      [HoseState.ready, .flowing, .slowing, .paused, .stopping].contains (s.hoses.get id).state = false)
    ∧ (∀ id : HoseId, (s.hoses.get id).outputs.reel = false)
    ∧ s.field.levels.coupled = false
    ∧ ∀ p ∈ s.loads.orders, p.2.state ≠ .loading ∧ p.2.state ≠ .settling := by
  simp only [← inletBusy_eq_false, ← openState_eq, forall_hose, permitConditions, ByHose.toList, ByHose.get,
    List.all_cons, List.all_nil, Bool.and_eq_true, Bool.not_eq_true', and_true, and_assoc]

theorem permitLaw_iff (s : State) : PermitLaw s ↔ PermitCurrent s := by
  unfold PermitLaw PermitCurrent
  rw [← permitConditions_iff, ← Bool.eq_iff_iff]

/-! ### The forms of a row -/

theorem permitCurrent_evaluatePermit (s : State) : PermitCurrent (evaluatePermit s) := fun _ => rfl

/-- A controller held or without power has no law to keep. -/
theorem permitCurrent_of_stopped {s : State} (stopped : s.supply.power ≠ .running) : PermitCurrent s :=
  fun running => absurd running stopped

/-- A host command evaluates DRIVE PERMIT, or touches the port at most. -/
theorem hostStep_permitCurrent {c : Instr} {body : State → Reply} {s : State} (h : PermitCurrent s) :
    PermitCurrent (hostStep c body s) := by
  unfold hostStep
  split
  · split
    · exact permitCurrent_evaluatePermit _
    · exact h
  · exact h
  · exact h

theorem fieldStep_permitCurrent {act : State → State} {s : State} (h : PermitCurrent s) :
    PermitCurrent (fieldStep act s) := by
  unfold fieldStep
  split
  · exact permitCurrent_evaluatePermit _
  · exact h
  · exact h

/-- A switch that moves while the controller does not run only places its level. -/
theorem switchStep_stopped {old new : Bool} {place : Bool → Switches → Switches} {act : State → State} {s : State}
    (moves : old ≠ new) (stopped : s.supply.power ≠ .running) :
    switchStep old new place act s = setLevels (place new s.field.levels) s := by
  rw [switchStep, if_neg moves]
  dsimp only
  split
  next running => exact absurd running stopped
  next => rfl
  next => rfl

theorem switchStep_permitCurrent {old new : Bool} {place : Bool → Switches → Switches} {act : State → State}
    {s : State} (h : PermitCurrent s) : PermitCurrent (switchStep old new place act s) := by
  by_cases same : old = new
  · rwa [switchStep, if_pos same]
  · by_cases running : s.supply.power = .running
    · rw [switchStep_running same running]
      exact permitCurrent_evaluatePermit _
    · rw [switchStep_stopped same running]
      exact permitCurrent_of_stopped running

/-- What a row leaves keeps the law. -/
def KeepsPermit (o : Host.Outcome State Fault Refusal) : Prop := ∀ t, o = .next t → PermitCurrent t

theorem keepsPermit_next {t : State} (h : PermitCurrent t) : KeepsPermit (.next t) := by
  rintro _ ⟨⟩
  exact h

theorem pulserRow_keepsPermit {drift act : State → State} {s : State}
    (pinsOnly : (drift s).supply = s.supply) : KeepsPermit (pulserRow drift act s) := by
  unfold pulserRow
  split
  · exact keepsPermit_next (permitCurrent_evaluatePermit _)
  · exact keepsPermit_next (permitCurrent_of_stopped (by simp_all))
  · exact keepsPermit_next (permitCurrent_of_stopped (by simp_all))

theorem portRow_keepsPermit {act : State → Port → Port} {s : State} (h : PermitCurrent s) :
    KeepsPermit (portRow act s) := by
  unfold portRow
  split <;> exact keepsPermit_next h

/-! ### Supply, resets and clock -/

/-- The rollover touches machine records, its own instant and the notices. -/
theorem rollover_permitCurrent {s : State} (h : PermitCurrent s) : PermitCurrent (rollover s) := by
  unfold rollover raise
  split <;> exact h

theorem powerUp_permitCurrent (s : State) : PermitCurrent (powerUp s) := by
  unfold powerUp
  split
  · exact permitCurrent_evaluatePermit _
  · unfold returnRollover
    split
    · exact rollover_permitCurrent (permitCurrent_evaluatePermit _)
    · exact permitCurrent_evaluatePermit _

theorem powerFailWarning_permitCurrent {asserted : Bool} {s : State} (h : PermitCurrent s) :
    PermitCurrent (powerFailWarning asserted s) := by
  unfold powerFailWarning
  generalize (if asserted then warningAsserted else warningReleased) = act
  dsimp only
  split
  · exact permitCurrent_evaluatePermit _
  · exact switchStep_permitCurrent h

/-- The hold-off ends in a held reset, which has no law to keep, or in a completed one. -/
theorem holdOffStep_permitCurrent {s : State} (h : PermitCurrent s) : PermitCurrent (holdOffStep s) := by
  unfold holdOffStep
  split
  · cases s.timebase.holdOff with
    | none => exact h
    | some t =>
      rw [expire_some]
      unfold holdOffExpires
      dsimp only
      split
      · exact permitCurrent_of_stopped (s := { beginWarm (reachInstant t s) with supply := _ }) nofun
      · exact permitCurrent_evaluatePermit _
  · exact h
  · exact h

theorem poweredSecond_supply (s : State) : (poweredSecond s).supply = s.supply := by
  unfold poweredSecond rollover
  dsimp only
  split
  · exact raise_supply ..
  · rfl

theorem clockSecond_permitCurrent (s : State) : PermitCurrent (clockSecond s) := by
  unfold clockSecond
  split
  next => exact permitCurrent_evaluatePermit _
  next held => exact permitCurrent_of_stopped (by simp [poweredSecond_supply, held])
  next off => exact permitCurrent_of_stopped (by simp [countSecond, off])

theorem driftOne_supply (m : MeterId) (forward : Bool) (s : State) : (driftOne m forward s).supply = s.supply := by
  unfold driftOne
  dsimp only
  split <;> rfl

/-! ### Every command -/

/-- A command that a host sends is one `hostRow`. -/
theorem exec_fromHost {c : Instr} (host : fromHost c = true) (s : State) : ∃ body, exec c s = hostRow c body s := by
  cases c <;> first | exact ⟨_, rfl⟩ | cases host

/-- R110, command by command: the host's commands are one form, the events each have theirs. -/
theorem exec_keepsPermit {c : Instr} {s : State} (h : PermitCurrent s) : KeepsPermit (exec c s) := by
  by_cases host : fromHost c = true
  · obtain ⟨body, row⟩ := exec_fromHost host s
    rw [row]
    exact keepsPermit_next (hostStep_permitCurrent h)
  · cases c with
    | commandTransaction => rw [exec_commandTransaction]; exact portRow_keepsPermit h
    | readTransaction => rw [exec_readTransaction]; exact portRow_keepsPermit h
    | linkReset => rw [exec_linkReset]; exact portRow_keepsPermit h
    | forwardPulse | reversePulse | pulserQuarterStep => exact pulserRow_keepsPermit (driftOne_supply ..)
    | illegalTransition => rw [exec_illegalTransition]; exact pulserRow_keepsPermit rfl
    | emergencyStop | parkBrake | nozzleSwitch | startInput | stowSwitch | inletCoupling | highLevelSwitch
      | sealSwitch => exact keepsPermit_next (switchStep_permitCurrent h)
    | powerUp => exact keepsPermit_next (powerUp_permitCurrent s)
    | retentionSupplyLoss => exact keepsPermit_next h
    | powerFailWarning => exact keepsPermit_next (powerFailWarning_permitCurrent h)
    | powerFailHoldOffExpiry => exact keepsPermit_next (holdOffStep_permitCurrent h)
    | mainPowerLoss => exact keepsPermit_next (permitCurrent_of_stopped nofun)
    | siteClockSecond => exact keepsPermit_next (clockSecond_permitCurrent s)
    | storeWriteComplete | resetPin | receiverCharacter | lineBreak | idleEvent | fifoEntryTaken
      | silenceTimerExpiry | graceExpiry | tagPresent | tagLost | tagChanged | referDeadlineExpiry | readyTimerExpiry
      | resumeTimerExpiry | settleTimerExpiry | rewindTimerExpiry | proveReadyTimeout | proveSettleTimerExpiry
      | armTimerExpiry | inletIdleTimerExpiry | loadSettleTimerExpiry | windowExpiry | pwmPeriodStart | probeSample
      | lineTemperatureValidityChange => exact keepsPermit_next (fieldStep_permitCurrent h)
    | _ => exact absurd rfl host

/-- The tick moves time alone. -/
theorem tick_permitCurrent {s : State} (h : PermitCurrent s) : PermitCurrent (tick s) := by
  unfold tick
  split <;> exact h

/-- Settles O57: a step is the command at the front of the queue, the controller's own work as a command, or a tick. -/
theorem everyStepKeepsDrivePermitR110 : Obligations.EveryStepKeepsDrivePermitR110 := by
  intro s t law steps
  rw [permitLaw_iff] at law ⊢
  unfold step at steps
  split at steps
  next =>
    unfold idle at steps
    split at steps
    next =>
      cases steps
      exact tick_permitCurrent law
    next => exact exec_keepsPermit law t steps
  next rest _ => exact exec_keepsPermit (s := { s with pending := rest }) law t steps

end Sys2Proof.Machine
end

section
/-! PROOFS. Hose points (Chapter 6): the commands of a hose with their checks, the rewind, and the events that change a
level, a reading or a duty alone. -/

namespace Sys2Proof.Machine

/-! ### HOSE SETUP (R96, R97) -/

/-- Numbers written from compartments name those compartments. -/
theorem mapM_fourOf_number (cs : List CompId) : (cs.map Four.number).mapM fourOf = some cs := by
  induction cs with
  | nil => rfl
  | cons c rest ih => simp [ih]

theorem distinctComps_iff (cs : List CompId) : distinctComps cs = true ↔ cs.Nodup := by
  induction cs with
  | nil => simp [distinctComps]
  | cons c rest ih => simp [distinctComps, ih]

theorem preferenceOf_number (cs : List CompId) :
    preferenceOf (cs.map Four.number) = if 1 ≤ cs.length ∧ cs.length ≤ 4 ∧ cs.Nodup then some cs else none := by
  simp only [preferenceOf, mapM_fourOf_number, Bool.and_eq_true, inRange_iff, distinctComps_iff, and_assoc]

/-- R96, R97: clamps first, then the ranges; the record has every field of the command. -/
theorem setupOf_eq {id : HoseId} {f : HoseSetupFields} {cs : List CompId} {maxFlow slowFlow : Nat}
    (named : f.preference = cs.map Four.number) (most : maxFlow = min f.maxFlow (HoseId.flowCeiling id))
    (slow : slowFlow = min f.slowFlow maxFlow) {set : HoseSetup}
    (setIs : set =
      { preference := cs, maxFlow := maxFlow, minFill := f.minFill, slowDown := f.slowDown, slowFlow := slowFlow,
        lead := f.lead, startDuty := f.startDuty, readyTimeout := f.readyTimeout, resumeWindow := f.resumeWindow,
        noFlowWindows := f.noFlowWindows, noFlowThreshold := f.noFlowThreshold, stopSettle := f.stopSettle,
        creepLimit := f.creepLimit, rewindLimit := f.rewindLimit, referDeadline := f.referDeadline,
        collectionRequired := f.collectionRequired }) :
    setupOf id f =
      if 1 ≤ cs.length ∧ cs.length ≤ 4 ∧ cs.Nodup ∧ 10 ≤ maxFlow ∧ 1 ≤ f.minFill ∧ f.minFill ≤ 500
          ∧ f.slowDown ≤ 100 ∧ 5 ≤ slowFlow ∧ slowFlow ≤ 200 ∧ f.lead ≤ 200 ∧ f.startDuty ≤ 1000
          ∧ 10 ≤ f.readyTimeout ∧ f.readyTimeout ≤ 600 ∧ 5 ≤ f.resumeWindow ∧ f.resumeWindow ≤ 300
          ∧ 2 ≤ f.noFlowWindows ∧ f.noFlowWindows ≤ 255 ∧ f.noFlowThreshold ≤ 50 ∧ 1 ≤ f.stopSettle
          ∧ f.stopSettle ≤ 30 ∧ 1 ≤ f.creepLimit ∧ f.creepLimit ≤ 50 ∧ 5 ≤ f.rewindLimit ∧ f.rewindLimit ≤ 120
          ∧ 5 ≤ f.referDeadline ∧ f.referDeadline ≤ 120 then some set else none := by
  subst setIs slow most
  rw [setupOf, named, preferenceOf_number]
  by_cases listed : 1 ≤ cs.length ∧ cs.length ≤ 4 ∧ cs.Nodup
  · obtain ⟨least, few, distinct⟩ := listed
    simp only [least, few, distinct, true_and, and_true, if_true, Bool.and_eq_true, inRange_iff, decide_eq_true_eq,
      and_assoc]
  · have notAll {p : Prop} : ¬ (1 ≤ cs.length ∧ cs.length ≤ 4 ∧ cs.Nodup ∧ p) := fun ⟨least, few, distinct, _⟩ =>
      listed ⟨least, few, distinct⟩
    rw [if_neg listed, if_neg notAll]

/-- Settles O26: form and ranges are one check, the states that are engaged the other. -/
theorem hoseSetupFollowsR96R97 : Obligations.HoseSetupFollowsR96R97 := by
  refine ⟨fun n id f cs maxFlow slowFlow h s ready named at_id listed most slow set setIs => ?_,
    fun n f s ready unnamed => ?_⟩
  · refine (exec_hoseSetup n f s).trans (hostRow_checkedReply ready ?_)
    have clamped : maxFlow = min f.maxFlow (HoseId.flowCeiling id) := most.trans (by cases id <;> rfl)
    have formed := setupOf_eq listed clamped slow setIs
    split at formed
    next within =>
      rw [decide_eq_true within, checkedReply_true]
      simp only [doHoseSetup, named, formed, at_id]
      exact ite_eq_checkedReply (by rw [startsFrom_eq, Bool.not_eq_false']) fun _ => rfl
    next outside =>
      rw [decide_eq_false outside]
      simp only [doHoseSetup, named, formed]
      rfl
  · refine (exec_hoseSetup n f s).trans (hostRow_answers ready ?_)
    simp only [doHoseSetup, unnamed]
    rfl

/-! ### HOSE READ, HOSE SERVICE and FIELD STATUS (R98, R99, R101) -/

theorem atRest_eq (st : HoseState) : atRest st = [HoseState.idle, .complete, .locked].contains st := by
  cases st <;> rfl

section
variable {n : Nat} {id : HoseId} {h : Hose} {s : State} (named : hoseOf n = some id) (at_id : s.hoses.get id = h)
include named at_id

/-- R99: a hose at rest without a running rewind goes out of service; one at rest is in service. -/
theorem doHoseService_rest (rests : atRest h.state = true) :
    doHoseService n .inService s = answer .ok s
    ∧ doHoseService n .outOfService s = checkedReply [(!h.outputs.reel, .busy)] s
      (answer .ok (setHose id { h with state := .outOfService, returnState := some h.state } s)) := by
  subst at_id
  simp only [doHoseService, named, rests, if_true, true_and]
  exact ite_eq_checkedReply (by rw [Bool.not_eq_false']) fun _ => rfl

theorem doHoseService_out (out : h.state = .outOfService) :
    doHoseService n .outOfService s = answer .ok s
    ∧ doHoseService n .inService s =
      answer .ok (setHose id { h with state := h.returnState.getD .idle, returnState := none } s) := by
  subst at_id
  simp [doHoseService, named, out, atRest]

theorem doHoseService_engaged (notRest : atRest h.state = false) (notOut : h.state ≠ .outOfService) :
    doHoseService n .outOfService s = answer .busy s ∧ doHoseService n .inService s = answer .ok s := by
  subst at_id
  simp [doHoseService, named, notRest, notOut]

end

theorem not_outOfService_of_rest {st : HoseState}
    (engaged : [HoseState.idle, .complete, .locked, .outOfService].contains st = false) :
    atRest st = false ∧ st ≠ .outOfService := by
  revert engaged
  cases st <;> decide

/-- Settles O27: the two readings as they stand; HOSE SERVICE at rest, out of service and engaged. -/
theorem hoseReadServiceFieldStatusFollowR98R101 : Obligations.HoseReadServiceFieldStatusFollowR98R101 := by
  refine ⟨fun n id h s ready named at_id => ⟨?_, ?_, fun rests => ?_, fun out => ?_, fun engaged => ?_⟩,
    fun n s ready unnamed => ⟨?_, fun target => ?_⟩⟩
  · refine (exec_hoseRead n s).trans (hostRow_answers ready ?_)
    simp only [doHoseRead, named, at_id]
    rfl
  · exact (exec_fieldStatus s).trans (hostRow_answers ready rfl)
  · obtain ⟨stays, goes⟩ := doHoseService_rest named at_id ((atRest_eq _).trans rests)
    exact ⟨(exec_hoseService n _ s).trans (hostRow_answers ready stays),
      (exec_hoseService n _ s).trans (hostRow_checkedReply ready goes)⟩
  · obtain ⟨stays, returns⟩ := doHoseService_out named at_id out
    refine ⟨(exec_hoseService n _ s).trans (hostRow_answers ready stays), fun back backIs => ?_⟩
    rw [backIs] at returns
    exact (exec_hoseService n _ s).trans (hostRow_answers ready returns)
  · obtain ⟨notRest, notOut⟩ := not_outOfService_of_rest engaged
    obtain ⟨busy, stays⟩ := doHoseService_engaged named at_id notRest notOut
    exact ⟨(exec_hoseService n _ s).trans (hostRow_answers ready busy),
      (exec_hoseService n _ s).trans (hostRow_answers ready stays)⟩
  · refine (exec_hoseRead n s).trans (hostRow_answers ready ?_)
    simp only [doHoseRead, unnamed]
    rfl
  · refine (exec_hoseService n target s).trans (hostRow_answers ready ?_)
    simp only [doHoseService, unnamed]
    rfl

/-! ### REWIND, stow switch and rewind timer (R108, R109) -/

/-- A switch that moves at a running controller, in the statements' terms. -/
theorem next_switchStep {old new : Bool} {place : Bool → Switches → Switches} {act : State → State} {s moved : State}
    (moves : old ≠ new) (running : s.supply.power = .running)
    (movedIs : moved = { s with
      field := { s.field with
        levels := place new s.field.levels, changed := place true s.field.changed } }) :
    Host.Outcome.next (switchStep old new place act s) = (happens (act moved) : Host.Outcome State Fault Refusal) := by
  rw [movedIs]
  exact congrArg Host.Outcome.next (switchStep_running moves running)

/-- R109: a running rewind ends, its timer stops, DONE is raised. -/
theorem endRewind_running {id : HoseId} {h : Hose} {s : State} (outcome : RewindOutcome) (at_id : s.hoses.get id = h)
    (reels : h.outputs.reel = true) : endRewind id outcome s = raise (.doneHose id)
      (setHose id { h with outputs := { h.outputs with reel := false }, rewindTimer := none, rewindOutcome := outcome }
        s) := by
  simp [endRewind, stopRewind, at_id, reels]

/-- Settles O28: the checks of REWIND in order, then switch and timer by whether a rewind runs. -/
theorem rewindFollowsR108R109 : Obligations.RewindFollowsR108R109 := by
  refine ⟨fun id h s running at_id => ⟨fun free => ?_, fun closed moved moves movedIs => ?_, fun t timed reels => ?_⟩,
    fun n s ready unnamed => ?_⟩
  · refine (exec_rewind id.number s).trans (hostRow_checkedReply ⟨running, free⟩ ?_)
    simp only [doRewind, hoseOf_number, at_id]
    refine ite_eq_checkedReply (by rw [Bool.not_eq_false']) fun _ => ?_
    refine ite_eq_checkedReply (by rw [atRest_eq, Bool.not_eq_true']) fun _ => ?_
    exact ite_eq_checkedReply (by rw [rewindAllowed, Bool.not_eq_true']) fun _ => rfl
  · have at_moved : moved.hoses.get id = h := by rw [movedIs, at_id]
    have acts : exec (.stowSwitch id closed) s = happens (if closed then endRewind id .stowed moved else moved) :=
      next_switchStep moves running movedIs
    rw [acts]
    refine ⟨fun none => ?_, fun isClosed reels => ?_⟩
    · rcases none with opened | still
      · simp [opened]
      · simp [endRewind_still .stowed (at_moved ▸ still)]
    · rw [if_pos isClosed, endRewind_running .stowed at_moved reels, movedIs]
      rfl
  · have whole : exec (.rewindTimerExpiry id) s = happens (rewindExpires id (reachInstant t s)) := by
      rw [exec_rewindTimerExpiry, execRewindTimerExpiry, fieldRow_running running, at_id, timed, expire_some]
    have at_reached : (reachInstant t s).hoses.get id = h := at_id
    rw [whole, rewindExpires, at_reached, if_pos reels, endRewind_running .limit at_reached reels]
    rfl
  · refine (exec_rewind n s).trans (hostRow_answers ready ?_)
    simp only [doRewind, unnamed]
    rfl

/-! ### PWM period, line temperature and seal switch (R101, R104) -/

theorem tempValid_iff (t : Int) : tempValid t = true ↔ -500 ≤ t ∧ t ≤ 1000 := by simp [tempValid]

/-- R101: the reading is taken, its flag set where the validity changes. -/
theorem takeLineTemp_eq (id : HoseId) (reading : Int) (s : State) : takeLineTemp id reading s =
    { s with
      field := { s.field with
        lineTemp := s.field.lineTemp.set id.meter reading
        tempChanged := if (-500 ≤ s.field.lineTemp.get id.meter ∧ s.field.lineTemp.get id.meter ≤ 1000)
            ↔ (-500 ≤ reading ∧ reading ≤ 1000) then s.field.tempChanged
          else s.field.tempChanged.set id true } } := by
  simp only [takeLineTemp, ← tempValid_iff, ← Bool.eq_iff_iff, beq_iff_eq]
  split <;> rfl

/-- Settles O29, event by event. -/
theorem pwmTemperatureSealFollowR101R104 : Obligations.PwmTemperatureSealFollowR101R104 := by
  refine fun s running => ⟨⟨pwmPeriod s, ?_, rfl, fun id => ByHose_get_map takeDuty s.hoses id⟩,
    fun id reading => ?_, fun closed moves => ?_⟩
  · exact (exec_pwmPeriodStart s).trans (fieldRow_running running)
  · rw [exec_lineTemperatureValidityChange, execLineTemperatureValidityChange, fieldRow_running running,
      takeLineTemp_eq]
  · exact next_switchStep moves running rfl

end Sys2Proof.Machine
end

section
/-! PROOFS. The start input (R114, R115, R117, R118, R160, R161): what an asserted and a released input do by the state of
the hose. -/

namespace Sys2Proof.Machine

/-! ### A session starts or resumes -/

theorem remaining_eq (x : Session) : remaining x = (x.hold * 1000000 : Int) - x.net := by
  simp [remaining, Config.litre]

/-- R115: the state a start chooses. -/
theorem startState_eq (setup : HoseSetup) (x : Session) : startState setup x =
    if (x.hold * 1000000 : Int) - x.net ≤ setup.lead * 100000 then none
    else some (if (x.hold * 1000000 : Int) - x.net ≤ setup.slowDown * 1000000 then .slowing else .flowing) := by
  simp only [startState, remaining_eq, Config.litre, Nat.cast_mul, Nat.cast_ofNat]
  split
  · rfl
  · split <;> rfl

theorem setHose_same {id : HoseId} {h : Hose} {s : State} (at_id : s.hoses.get id = h) : setHose id h s = s := by
  subst at_id
  simp [setHose]

theorem provingTarget_eq (setup : HoseSetup) (r : Run) :
    provingTarget setup r = (r.nominal : Int) * 1000000 - setup.lead * 100000 := by
  simp [provingTarget, Config.litre]

section
variable {id : HoseId} {h : Hose} {s : State} (at_id : s.hoses.get id = h)
include at_id

/-- R115, R118: the session `x` of the hose starts or resumes; at the lead volume it goes to STOPPING at once. -/
theorem startDelivery_eq {x : Session} (session : h.session = some x) : startDelivery id s =
    if (x.hold * 1000000 : Int) - x.net ≤ h.setup.lead * 100000 then
      setHose id
        { h with
          state := .stopping
          outputs := { h.outputs with mainValve := false, staged := 0 }
          session := some { x with stopCause := some .holdReached }
          readyTimer := none, resumeTimer := none
          settleTimer := some (s.timebase.now + h.setup.stopSettle * 1000)
          closingInstant := s.timebase.now, windowAfterClosing := false } s
    else
      setHose id
        { h with
          state := if (x.hold * 1000000 : Int) - x.net ≤ h.setup.slowDown * 1000000 then .slowing else .flowing
          outputs := { h.outputs with mainValve := true, staged := max h.setup.startDuty 100 }
          session := some { x with started := some (x.started.getD s.timebase.count) }
          readyTimer := none, resumeTimer := none, settleTimer := none, lowFlowRun := 0, overspeedRun := 0 } s := by
  split
  next reached =>
    simp only [startDelivery, at_id, session, startState_eq, if_pos reached, enterStopping]
    rfl
  next short =>
    simp only [startDelivery, at_id, session, startState_eq, if_neg short]
    rfl

/-- R118: the tag condition of a resume. -/
theorem mayResume_iff {x : Session} (session : h.session = some x) :
    mayResume id s = true ↔ x.kind = .manual ∨ (s.readers.get id).present.map Presence.tag = x.tag := by
  rw [mayResume, at_id, tagInitiated_eq session]
  by_cases manual : x.kind = .manual
  · simp [manual]
  · simp [manual, sessionTag_of_initiated session manual, presentTag]

/-- R115, R118: asserted with the nozzle off hook, at a READY hose or one that may resume with the pause counted. -/
theorem startAsserted_starts {x y : Session} (session : h.session = some x)
    (off : s.field.levels.offHook.get id = true)
    (starts : (h.state = .ready ∧ y = x)
      ∨ (h.state = .paused ∧ y = { x with pauseCount := min (x.pauseCount + 1) 255 }
        ∧ (x.kind = .manual ∨ (s.readers.get id).present.map Presence.tag = x.tag))) :
    startAsserted id s = startDelivery id (setHose id { h with session := some y } s) := by
  rcases starts with ⟨ready, rfl⟩ | ⟨paused, rfl, may⟩
  · rw [setHose_same (show s.hoses.get id = { h with session := some y } by rw [at_id, ← session])]
    simp only [startAsserted, off, if_true, at_id, ready]
  · simp only [startAsserted, off, if_true, at_id, paused, (mayResume_iff at_id session).2 may, session]
    rfl

theorem startAsserted_waits {x : Session} (session : h.session = some x) (paused : h.state = .paused)
    (initiated : x.kind ≠ .manual) (absent : (s.readers.get id).present.map Presence.tag ≠ x.tag) :
    startAsserted id s = s := by
  have mayNot : ¬ mayResume id s = true := fun may =>
    ((mayResume_iff at_id session).1 may).elim initiated absent
  simp only [startAsserted, at_id, paused, if_neg mayNot, ite_self]

/-! ### A run starts (R160) -/

/-- The start input of a PROVE_READY hose with run `r`. -/
theorem startAsserted_run {r : Run} (off : s.field.levels.offHook.get id = true) (ready : h.state = .proveReady)
    (run : h.run = some r) : startAsserted id s =
      if (r.indicated : Int) < (r.nominal : Int) * 1000000 - h.setup.lead * 100000 then
        setHose id
          { h with
            state := .proveFlowing
            outputs := { h.outputs with mainValve := true, staged := max h.setup.startDuty 100 }
            run := some { r with flowOpened := some s.timebase.now }
            readyTimer := none, resumeTimer := none, settleTimer := none } s
      else enterProveHeld id .target false s := by
  simp only [startAsserted, off, if_true, at_id, ready, startRun, run, provingTarget_eq]
  rfl

/-! ### States in which the input does nothing more -/

theorem startAsserted_rests (rests : [HoseState.idle, .referred, .flowing, .slowing, .stopping, .complete, .locked,
    .outOfService, .proveFlowing, .proveHeld].contains h.state = true) : startAsserted id s = s := by
  simp only [startAsserted, at_id]
  generalize h.state = st at rests
  cases st <;> first | exact ite_self _ | cases rests

theorem startReleased_rests (rests : [HoseState.idle, .referred, .ready, .paused, .stopping, .complete, .locked,
    .outOfService, .proveReady, .proveHeld].contains h.state = true) : startReleased id s = s := by
  simp only [startReleased, at_id]
  generalize h.state = st at rests
  cases st <;> first | rfl | cases rests

theorem startReleased_pauses (delivers : h.state = .flowing ∨ h.state = .slowing) :
    startReleased id s = pause id .operator s := by
  rcases delivers with is | is <;> simp only [startReleased, at_id, is]

theorem startReleased_holds (flows : h.state = .proveFlowing) :
    startReleased id s = enterProveHeld id .operator false s := by
  simp only [startReleased, at_id, flows]

end

theorem startAsserted_onHook {id : HoseId} {s : State} (on : s.field.levels.offHook.get id = false) :
    startAsserted id s = s := by simp [startAsserted, on]

/-- The row of the start input that moves at a running controller. -/
theorem exec_startInput_moves {id : HoseId} {asserted : Bool} {s moved : State} (running : s.supply.power = .running)
    (moves : s.field.levels.start.get id ≠ asserted)
    (movedIs : moved = { s with
      field := { s.field with
        levels := { s.field.levels with start := s.field.levels.start.set id asserted }
        changed := { s.field.changed with start := s.field.changed.start.set id true } } }) :
    exec (.startInput id asserted) s = happens (if asserted then startAsserted id moved else startReleased id moved) :=
  next_switchStep moves running movedIs

/-- Settles O32: a hose with a session, then the hose of a run and the states in which the input does nothing. -/
theorem startInputFollowsR114R118 : Obligations.StartInputFollowsR114R118 := by
  refine ⟨fun id asserted h x y s moved running at_h session moves movedIs => ?_,
    fun id asserted h s moved running at_h moves movedIs => ?_⟩ <;>
    have at_moved : moved.hoses.get id = h := (congrArg (fun u : State => u.hoses.get id) movedIs).trans at_h <;>
    rw [exec_startInput_moves running moves movedIs]
  · have readers : moved.readers = s.readers := by rw [movedIs]
    have hook : moved.field.levels.offHook = s.field.levels.offHook := by rw [movedIs]
    refine ⟨fun on onHook => ?_, fun on off starts => ?_, fun released delivers => ?_,
      fun on paused initiated absent => ?_⟩
    · rw [if_pos on, startAsserted_onHook (hook ▸ onHook)]
    · have same : y.hold = x.hold ∧ y.net = x.net ∧ y.started = x.started := by
        rcases starts with ⟨_, rfl⟩ | ⟨_, rfl, _⟩ <;> exact ⟨rfl, rfl, rfl⟩
      obtain ⟨hold, net, started⟩ := same
      rw [if_pos on, startAsserted_starts at_moved session (hook ▸ off) (readers ▸ starts),
        startDelivery_eq (h := { h with session := some y }) (x := y) (by simp) rfl, apply_ite happens, movedIs]
      simp only [hold, net, started, setHose_setHose]
      rfl
    · rw [if_neg (by simp [released]), startReleased_pauses at_moved delivers, pause, at_moved, session, movedIs]
      rfl
    · rw [if_pos on, startAsserted_waits at_moved session paused initiated (readers ▸ absent)]
  · refine ⟨fun r on ready run => ⟨fun onHook => ?_, fun off => ?_⟩, fun released flows => ?_, fun on rests => ?_,
      fun released rests => ?_⟩
    · rw [if_pos on, startAsserted_onHook (by rw [movedIs]; exact onHook)]
    · rw [if_pos on, startAsserted_run at_moved (by rw [movedIs]; exact off) ready run, apply_ite happens, movedIs]
      rfl
    · rw [if_neg (by simp [released]), startReleased_holds at_moved flows]
    · rw [if_pos on, startAsserted_rests at_moved rests]
    · rw [if_neg (by simp [released]), startReleased_rests at_moved rests]

end Sys2Proof.Machine
end

section
/-! PROOFS. The pulser rows (R136 to R138): the pins after one step, what a completed pulse counts, and the illegal
transition. -/

namespace Sys2Proof.Machine

theorem pulserRow_running {drift act : State → State} {s : State} (running : s.supply.power = .running) :
    pulserRow drift act s = happens (act s) := by
  rw [pulserRow, running]
  rfl

/-! ### The pins (R101, R136) -/

/-- Pins of meter `m` placed at `a` and `b`, each with its flag where it differs from channel `c`'s; the channel is
otherwise `d`. -/
def pinsMoved (m : MeterId) (a b : Bool) (c d : Channel) (s : State) : State :=
  { s with
    channels := s.channels.set m { d with pinA := a, pinB := b }
    field := { s.field with
      pulserAChanged := if a ≠ c.pinA then s.field.pulserAChanged.set m true else s.field.pulserAChanged
      pulserBChanged := if b ≠ c.pinB then s.field.pulserBChanged.set m true else s.field.pulserBChanged } }

theorem pinsMoved_channel (m : MeterId) (a b : Bool) (c d : Channel) (s : State) :
    (pinsMoved m a b c d s).channels.get m = { d with pinA := a, pinB := b } := ByFour_get_set ..

/-- What a pulse writes into the channel after its pins have moved. -/
theorem setChannel_pinsMoved {m : MeterId} {a b : Bool} {c d x : Channel} {s : State} (pinA : x.pinA = a)
    (pinB : x.pinB = b) : setChannel m x (pinsMoved m a b c d s) = pinsMoved m a b c x s := by
  subst pinA pinB
  simp [setChannel, pinsMoved]

theorem movesA_iff (forward : Bool) (c : Channel) :
    movesA forward c = true ↔ (c.pinA = c.pinB) = (forward = true) := by
  cases forward <;> simp [movesA]

/-- R136: one step moves channel A or channel B, by the levels and the direction. -/
theorem movePin_eq {m : MeterId} {forward a b : Bool} {c : Channel} {s : State} (at_m : s.channels.get m = c)
    (pins : (a, b) = if (c.pinA = c.pinB) = (forward = true) then (!c.pinA, c.pinB) else (c.pinA, !c.pinB)) :
    movePin m forward s = pinsMoved m a b c c s := by
  simp only [← movesA_iff] at pins
  simp only [movePin, at_m]
  split at pins
  next movesA =>
    obtain ⟨rfl, rfl⟩ := Prod.mk.inj pins
    simp [movesA, pinsMoved, setChannel]
  next movesB =>
    obtain ⟨rfl, rfl⟩ := Prod.mk.inj pins
    simp [movesB, pinsMoved, setChannel]

/-! ### A completed pulse and an illegal transition (R137, R138) -/

section
variable {m : MeterId} {c : Channel} {s : State} (at_m : s.channels.get m = c)
include at_m

/-- A debt is paid first. -/
theorem countForward_pays (capture : Nat) (owes : 0 < c.debt) :
    countForward m capture s = setChannel m { c with step := 0, debt := c.debt - 1 } s := by
  simp only [countForward, at_m, if_pos owes]

theorem countForward_counts (capture : Nat) (clear : c.debt = 0) (room : c.n < 65535) :
    countForward m capture s =
      setChannel m { c with step := 0, n := c.n + 1, first := some (c.first.getD capture), last := some capture } s := by
  simp only [countForward, at_m, clear, Nat.lt_irrefl, if_false, Config.countMax, if_pos room]

theorem countForward_full (capture : Nat) (clear : c.debt = 0) (full : 65535 ≤ c.n) (reported : c.fullReported = true) :
    countForward m capture s = setChannel m { c with step := 0 } s := by
  simp only [countForward, at_m, clear, Nat.lt_irrefl, if_false, Config.countMax, if_neg (Nat.not_lt.2 full), reported,
    if_true]

/-- The first pulse that finds the count full reports PULSER with detail 1. -/
theorem countForward_reports (capture : Nat) (clear : c.debt = 0) (full : 65535 ≤ c.n)
    (quiet : c.fullReported = false) : countForward m capture s =
      meterStop m (report (.meter m) .pulser m.number 1 (setChannel m { c with step := 0, fullReported := true } s)) := by
  simp only [countForward, at_m, clear, Nat.lt_irrefl, if_false, Config.countMax, if_neg (Nat.not_lt.2 full), quiet,
    Bool.false_eq_true]
  rfl

theorem countReverse_eq :
    countReverse m s = setChannel m { c with step := 0, debt := min (c.debt + 1) 65535 } s := by
  subst at_m
  rfl

/-- R138: both pins move, the illegal count rises, and the third is reported. -/
theorem countIllegal_moveBothPins {both : State} (bothIs : both = { s with
      channels := s.channels.set m { c with pinA := !c.pinA, pinB := !c.pinB, illegal := min (c.illegal + 1) 255 }
      field := { s.field with
        pulserAChanged := s.field.pulserAChanged.set m true
        pulserBChanged := s.field.pulserBChanged.set m true } }) :
    countIllegal m (moveBothPins m s) =
      if c.illegal = 2 then meterStop m (report (.meter m) .pulser m.number 2 both) else both := by
  have at_moved : (moveBothPins m s).channels.get m = { c with pinA := !c.pinA, pinB := !c.pinB } := by
    simp [moveBothPins, setChannel, at_m]
  have raised : setChannel m { c with pinA := !c.pinA, pinB := !c.pinB, illegal := min (c.illegal + 1) 255 }
      (moveBothPins m s) = both := by simp [bothIs, moveBothPins, setChannel]
  simp only [countIllegal, at_moved, satAdd, raised]
  rfl

end

/-! ### The rows -/

section
variable {m : MeterId} {a b : Bool} {c : Channel} {s : State} {moved : Channel → State}
  (at_m : s.channels.get m = c) (movedIs : ∀ d, moved d = pinsMoved m a b c d s)
include at_m movedIs

/-- R136: a quarter step that completes no pulse. -/
theorem quarterStep_moves {forward : Bool}
    (pins : (a, b) = if (c.pinA = c.pinB) = (forward = true) then (!c.pinA, c.pinB) else (c.pinA, !c.pinB))
    (above : -4 < (if forward then c.step + 1 else c.step - 1))
    (below : (if forward then c.step + 1 else c.step - 1) < 4) :
    quarterStep m forward s = moved { c with step := if forward then c.step + 1 else c.step - 1 } := by
  simp only [quarterStep, movePin_eq at_m pins, pinsMoved_channel, if_neg (Int.not_le.2 below),
    if_neg (Int.not_le.2 above), movedIs]
  exact setChannel_pinsMoved rfl rfl

/-- The quarter step that completes a pulse counts it with the counter as it stands (notes/assumptions/27.md). -/
theorem quarterStep_counts
    (pins : (a, b) = if (c.pinA = c.pinB) = (true = true) then (!c.pinA, c.pinB) else (c.pinA, !c.pinB))
    (last : c.step = 3) (clear : c.debt = 0) (room : c.n < 65535) : quarterStep m true s = moved
      { c with
        step := 0, n := c.n + 1, first := some (c.first.getD s.timebase.capture)
        last := some s.timebase.capture } := by
  have counted := countForward_counts (pinsMoved_channel m a b c c s) s.timebase.capture clear room
  have completes : (4 : Int) ≤ c.step + 1 := by omega
  simp only [quarterStep, movePin_eq at_m pins, pinsMoved_channel, if_true, if_pos completes, movedIs]
  exact counted.trans (setChannel_pinsMoved rfl rfl)

end

/-- Settles O38: the pins first, then the count of each row. -/
theorem pulserRowsFollowR136R138 : Obligations.PulserRowsFollowR136R138 := by
  intro m c s running at_m
  refine ⟨fun forward a b moved pins movedIs => ?_, fun both bothIs => ?_⟩
  · replace movedIs : ∀ d, moved d = pinsMoved m a b c d s := movedIs
    refine ⟨fun isForward capture cap capIs => ?_, fun isReverse => ?_, fun above below => ?_,
      fun isForward last clear room => ?_⟩
    · subst isForward
      generalize timedIs : setTimebase { s.timebase with capture := cap } (pinsMoved m a b c c s) = timed
      have at_timed : timed.channels.get m = { c with pinA := a, pinB := b } := by
        rw [← timedIs]
        exact pinsMoved_channel m a b c c s
      have whole : exec (.forwardPulse m capture) s = happens (countForward m cap timed) := by
        rw [exec_forwardPulse, execForwardPulse, pulserRow_running running, forwardPulse, movePin_eq at_m pins,
          ← timedIs, capIs]
        rfl
      have left {x : Channel} (pinA : x.pinA = a) (pinB : x.pinB = b) : setChannel m x timed =
          { pinsMoved m a b c x s with timebase := { s.timebase with capture := cap } } := by
        rw [← timedIs, ← setChannel_pinsMoved (d := c) pinA pinB]
        rfl
      rw [whole]
      refine ⟨fun owes => ?_, fun clear room => ?_, fun clear full reported => ?_, fun clear full quiet => ?_⟩
      · rw [countForward_pays at_timed cap owes, left rfl rfl, movedIs]
        rfl
      · rw [countForward_counts at_timed cap clear room, left rfl rfl, movedIs]
        rfl
      · rw [countForward_full at_timed cap clear full reported, left rfl rfl, movedIs]
        rfl
      · rw [countForward_reports at_timed cap clear full quiet, left rfl rfl, movedIs]
        rfl
    · subst isReverse
      rw [exec_reversePulse, execReversePulse, pulserRow_running running, reversePulse, movePin_eq at_m pins,
        countReverse_eq (pinsMoved_channel m a b c c s), movedIs, setChannel_pinsMoved rfl rfl]
      rfl
    · rw [exec_pulserQuarterStep, execPulserQuarterStep, pulserRow_running running,
        quarterStep_moves at_m movedIs pins above below]
    · subst isForward
      rw [exec_pulserQuarterStep, execPulserQuarterStep, pulserRow_running running,
        quarterStep_counts at_m movedIs pins last clear room]
  · rw [exec_illegalTransition, execIllegalTransition, pulserRow_running running, ← apply_ite happens]
    exact congrArg happens (countIllegal_moveBothPins at_m bothIs)

end Sys2Proof.Machine
end

section
/-! PROOFS. What the hose does with a window's result (R105, R116, R120, R121, R126, R160, R161). -/

namespace Sys2Proof.Machine

/-! ### One regulation step (R105) -/

theorem regulationPoint_eq (st : HoseState) (setup : HoseSetup) (x : Session) :
    regulationPoint st setup x = if st = .slowing then min setup.slowFlow x.setPoint else x.setPoint := by
  cases st <;> rfl

section
variable {id : HoseId} {h : Hose} {s : State} (at_id : s.hoses.get id = h)
include at_id

theorem stageDuty_eq (q point : Nat) : stageDuty id q point s =
    setHose id
      { h with
        outputs := { h.outputs with
          staged := max 100 (min (if point * 102 < q * 100 then h.outputs.staged - 10
            else if q * 100 < point * 98 then h.outputs.staged + 10 else h.outputs.staged) 1000) } } s := by
  subst at_id
  rfl

/-! ### The supervisions of a delivering session (R116, R120 to R122) -/

theorem noFlowTest_reports (low : h.setup.noFlowWindows ≤ h.lowFlowRun) :
    noFlowTest id s = report (.hose id) .noFlow id.number h.lowFlowRun s := by
  subst at_id
  exact if_pos low

theorem noFlowTest_rests (flows : h.lowFlowRun < h.setup.noFlowWindows) : noFlowTest id s = s := by
  subst at_id
  exact if_neg (Nat.not_le.2 flows)

/-- OVERSPEED is reported and remembered as a STOP fault. -/
theorem overspeedTest_reports (q : Nat) (fast : 2 ≤ h.overspeedRun) : overspeedTest id q s =
    { report (.hose id) .overspeed id.number q s with
      hoses := s.hoses.set id { h with stopFaultFound := true } } := by
  subst at_id
  simp [overspeedTest, fast, setHose]

theorem overspeedTest_rests (q : Nat) (slow : h.overspeedRun < 2) : overspeedTest id q s = s := by
  subst at_id
  exact if_neg (Nat.not_le.2 slow)

end

theorem runCause_noFlow {h : Hose} (low : h.setup.noFlowWindows ≤ h.lowFlowRun) : runCause h = some .noFlow := if_pos low

theorem runCause_overspeed {h : Hose} (flows : h.lowFlowRun < h.setup.noFlowWindows) (fast : 2 ≤ h.overspeedRun) :
    runCause h = some .overspeed := by
  rw [runCause, if_neg (Nat.not_le.2 flows), if_pos fast]

theorem runCause_none {h : Hose} (flows : h.lowFlowRun < h.setup.noFlowWindows) (slow : h.overspeedRun < 2) :
    runCause h = none := by
  rw [runCause, if_neg (Nat.not_le.2 flows), if_neg (Nat.not_le.2 slow)]

/-! ### The result at a delivering session -/

section
variable {id : HoseId} {h ran : Hose} {x : Session} {r : WindowResult} {s : State} (at_id : s.hoses.get id = h)
  (ranIs : ran = countRuns r h)
include at_id ranIs

/-- At the lead volume HOLD_REACHED alone. -/
theorem deliverResult_holds (reached : (x.hold * 1000000 : Int) - x.net ≤ h.setup.lead * 100000) :
    deliverResult id r x s = enterStopping id .holdReached true (setHose id ran s) := by
  have setup : ran.setup = h.setup := by rw [ranIs]; rfl
  simp only [deliverResult, at_id, ← ranIs, startState_eq, setup, if_pos reached]

variable (short : ran.setup.lead * 100000 < (x.hold * 1000000 : Int) - x.net)
include short

/-- Short of it, the runs of windows that stop the session, each with its report. -/
theorem deliverResult_stops {cause : StopCause} (stops : runCause ran = some cause) : deliverResult id r x s =
    enterStopping id cause true (overspeedTest id r.q (noFlowTest id (setHose id ran s))) := by
  simp only [deliverResult, at_id, ← ranIs, startState_eq, if_neg (Int.not_le.2 short), stops]

/-- Otherwise SLOWING or FLOWING with one regulation step. -/
theorem deliverResult_regulates (goesOn : runCause ran = none) {st : HoseState} {point : Nat}
    (stIs : st = if h.state = .slowing ∨ (x.hold * 1000000 : Int) - x.net ≤ h.setup.slowDown * 1000000
      then .slowing else .flowing)
    (pointIs : point = if st = .slowing then min h.setup.slowFlow x.setPoint else x.setPoint) :
    deliverResult id r x s = stageDuty id r.q point (setHose id { ran with state := st } s) := by
  have kept : h.setup = ran.setup ∧ ran.state = h.state := by rw [ranIs]; exact ⟨rfl, rfl⟩
  obtain ⟨setup, state⟩ := kept
  rw [setup] at stIs pointIs
  simp only [deliverResult, at_id, ← ranIs, startState_eq, if_neg (Int.not_le.2 short), goesOn, state,
    ← ite_or, ← stIs, regulationPoint_eq, ← pointIs, setHose_setHose]

end

/-! ### The states of the hose -/

section
variable {id : HoseId} {h : Hose} {r : WindowResult} {s : State} (at_id : s.hoses.get id = h)
include at_id

theorem handToHose_delivering {x : Session} (session : h.session = some x)
    (delivers : h.state = .flowing ∨ h.state = .slowing) : handToHose id r s = deliverResult id r x s := by
  rcases delivers with is | is <;> simp only [handToHose, at_id, is, session]

/-- R126: the close at a window without pulses that began at or after the closing instant. -/
theorem handToHose_closes (stopping : h.state = .stopping) (after : h.windowAfterClosing = true) (dry : r.n = 0) :
    handToHose id r s = closeSession id none s := by
  simp only [handToHose, at_id, stopping, if_pos (And.intro after dry)]

theorem handToHose_stopping (stopping : h.state = .stopping) (not : h.windowAfterClosing = false ∨ r.n ≠ 0) :
    handToHose id r s = setHose id { h with windowAfterClosing := true } s := by
  have waits : ¬ (h.windowAfterClosing = true ∧ r.n = 0) := fun ⟨after, dry⟩ =>
    not.elim (fun before => by simp [after] at before) (· dry)
  simp only [handToHose, at_id, stopping, if_neg waits, windowPassed]

/-- R160: the run is held at its target, or takes one regulation step. -/
theorem handToHose_proveFlowing {run : Run} (runs : h.run = some run) (flows : h.state = .proveFlowing) :
    handToHose id r s =
      if (run.nominal : Int) * 1000000 - h.setup.lead * 100000 ≤ run.indicated then enterProveHeld id .target true s
      else stageDuty id r.q run.setPoint s := by
  simp only [handToHose, at_id, flows, runs, provingTarget_eq]

/-- R161: a window without pulses settles a held run. -/
theorem handToHose_proveHeld {run : Run} (runs : h.run = some run) (held : h.state = .proveHeld) :
    handToHose id r s =
      setHose id
        (if run.settled = false ∧ h.windowAfterClosing = true ∧ r.n = 0 then
          { h with run := some { run with settled := true }, settleTimer := none }
        else { h with windowAfterClosing := true }) s := by
  simp only [handToHose, at_id, held, runs, Bool.and_eq_true, Bool.not_eq_true', beq_iff_eq, and_assoc, settleRun,
    windowPassed, ← apply_ite (fun g => setHose id g s)]
  rfl

theorem handToHose_rests (rests : [HoseState.idle, .referred, .ready, .paused, .complete, .locked, .outOfService,
    .proveReady].contains h.state = true) : handToHose id r s = s := by
  simp only [handToHose, at_id]
  generalize h.state = st at rests
  cases st <;> first | rfl | cases rests

end

/-- Settles O41: a session by lead volume and window runs, STOPPING, then the states of a run and the others. -/
theorem windowHandOverFollowsR105R126 : Obligations.WindowHandOverFollowsR105R126 := by
  refine ⟨fun id h ran x r s at_id session ranIs => ⟨fun delivers => ?_, handToHose_closes at_id,
    handToHose_stopping at_id⟩, fun id h r s at_id => ⟨fun run runs flows => ?_, fun run => handToHose_proveHeld at_id,
    handToHose_rests at_id⟩⟩
  · replace ranIs : ran = countRuns r h := ranIs
    rw [handToHose_delivering at_id session delivers]
    refine ⟨deliverResult_holds at_id ranIs, fun short noFlow fast noFlowIs fastIs => ?_⟩
    have at_ran : (setHose id ran s).hoses.get id = ran := by simp
    have at_noFlow : noFlow.hoses.get id = ran := by simp [noFlowIs]
    have setup : ran.setup = h.setup := by rw [ranIs]; rfl
    rw [← setup] at short
    refine ⟨fun low slow => ?_, fun low isFast => ?_, fun flows isFast => ?_, fun flows slow st point stIs pointIs => ?_⟩
    · rw [← setup] at low
      rw [deliverResult_stops at_id ranIs short (runCause_noFlow low), noFlowTest_reports at_ran low,
        show report _ _ _ _ (setHose id ran s) = noFlow from noFlowIs.symm, overspeedTest_rests at_noFlow r.q slow]
    · rw [← setup] at low
      rw [deliverResult_stops at_id ranIs short (runCause_noFlow low), noFlowTest_reports at_ran low,
        show report _ _ _ _ (setHose id ran s) = noFlow from noFlowIs.symm, overspeedTest_reports at_noFlow r.q isFast,
        fastIs]
    · rw [← setup] at flows
      rw [deliverResult_stops at_id ranIs short (runCause_overspeed flows isFast), noFlowTest_rests at_ran flows,
        overspeedTest_reports at_ran r.q isFast, fastIs]
      rfl
    · rw [← setup] at flows
      rw [deliverResult_regulates at_id ranIs short (runCause_none flows slow) stIs pointIs,
        stageDuty_eq (h := { ran with state := st }) (by simp), setHose_setHose, ranIs]
      rfl
  · rw [handToHose_proveFlowing at_id runs flows, stageDuty_eq at_id]
    rfl

end Sys2Proof.Machine
end

section
/-! PROOFS. Where a window's volume goes (R106, R107, R138, R139, R143, R145 to R148): the owner, the channel's own step,
the parts of session, run, order and nobody, and one channel's window put together. -/

namespace Sys2Proof.Machine

/-! ### The owner of a window (R145 to R147, R150) -/

section
variable {id : HoseId} {h : Hose} {s : State} (at_id : s.hoses.get id = h)
include at_id

theorem ownerOf_session (delivers : [HoseState.flowing, .slowing, .paused, .stopping].contains h.state = true) :
    ownerOf id.meter s = .session id := by
  simp only [ownerOf, meterHose_meter, at_id]
  generalize h.state = st at delivers
  cases st <;> first | rfl | cases delivers

theorem ownerOf_run (proves : [HoseState.proveReady, .proveFlowing, .proveHeld].contains h.state = true) :
    ownerOf id.meter s = .run id := by
  simp only [ownerOf, meterHose_meter, at_id]
  generalize h.state = st at proves
  cases st <;> first | rfl | cases proves

theorem ownerOf_nobody
    (rests : [HoseState.idle, .referred, .ready, .complete, .locked, .outOfService].contains h.state = true) :
    ownerOf id.meter s = .hoseNobody id := by
  simp only [ownerOf, meterHose_meter, at_id]
  generalize h.state = st at rests
  cases st <;> first | rfl | cases rests

end

theorem ownerOf_inlet (s : State) :
    ownerOf .four s = (loadingOrder s).elim .inletNobody (fun p => .load p.1) := by
  simp only [ownerOf, meterHose]
  cases loadingOrder s <;> rfl

/-! ### The channel's own step (R138, R143, R148) -/

section
variable {m : MeterId} {c : Channel} {s : State} (at_m : s.channels.get m = c)
include at_m

theorem reverseTest_below (below : c.debt * (s.store.meters.get m).pulseVolume ≤ 2000000) :
    reverseTest m s = setChannel m { c with reverseMark := false } s := by
  subst at_m
  exact if_neg (Nat.not_lt.2 below)

theorem reverseTest_marked (above : 2000000 < c.debt * (s.store.meters.get m).pulseVolume)
    (marked : c.reverseMark = true) : reverseTest m s = s := by
  simp only [reverseTest, at_m, if_pos above, marked, if_true]

/-- The first window above the limit reports REVERSE. -/
theorem reverseTest_reports (above : 2000000 < c.debt * (s.store.meters.get m).pulseVolume)
    (fresh : c.reverseMark = false) : reverseTest m s =
      meterStop m (report (.meter m) .reverse m.number c.debt (setChannel m { c with reverseMark := true } s)) := by
  simp only [reverseTest, at_m, if_pos above, fresh, Bool.false_eq_true, if_false]
  rfl

theorem probeTest_eq (reading : Int) : probeTest m reading s =
    if (reading < -500 ∨ 1000 < reading) ∧ c.probeValid = true then
      report (.meter m) .tempProbe m.number reading s
    else s := by
  have invalid : (!tempValid reading) = true ↔ reading < -500 ∨ 1000 < reading := by
    rw [Bool.not_eq_true', ← Bool.not_eq_true, tempValid_iff]
    omega
  simp only [probeTest, at_m, Bool.and_eq_true, invalid]

end

theorem closeWindow_eq (r : WindowResult) (gr nr : Nat) (c : Channel) : closeWindow r gr nr c =
    { c with
      n := 0, first := none, last := none, grossResidue := gr, netResidue := nr, lastFlow := r.q
      probeValid := !r.fallback, totaliser := (c.totaliser + r.gross) % 10 ^ 14
      wraps := if c.totaliser + r.gross < 10 ^ 14 then c.wraps else min (c.wraps + 1) 65535
      result := some r, fullReported := false } := rfl

/-- R139: one channel's window is its tests, its result, the distribution, and the hand-over. -/
theorem channelWindow_eq {m : MeterId} {reading : Int} {s : State} {r : WindowResult} {gr nr : Nat}
    (computed : computeWindow m (ownerOf m s) reading (reverseTest m s) = (r, gr, nr)) :
    ∀ probed, probed = probeTest m reading (reverseTest m s) →
    ∀ taken, taken = distribute m (ownerOf m s) r
      { probed with channels := probed.channels.set m (closeWindow r gr nr (probed.channels.get m)) } →
    channelWindow m reading s = match meterHose m with
      | some id => handToHose id r taken
      | none => handToLoad r taken := by
  rintro _ rfl _ rfl
  simp only [channelWindow, computed]
  rfl

/-! ### Volume in and out of a compartment (R62, R63, R147) -/

@[simp] theorem compareRestock_channels (c : CompId) (s : State) : (compareRestock c s).channels = s.channels := by
  rw [sameElsewhere_compareRestock c s]

theorem debit_eq {comp : CompId} {k : Compartment} {s : State} {released : Nat} (net : Nat)
    (at_comp : s.compartments.get comp = k) (fits : released ≤ k.committed) : debit comp net released s =
      compareRestock comp (setComp comp
        { k with book := k.book - net, dispensed := k.dispensed + net, committed := k.committed - released } s) := by
  simp only [debit, at_comp, minus_of_le fits]

/-! ### The parts of session, run and order (R143, R145, R147) -/

/-- R112, R143, R145: the session's figures, saturating, with their flags. -/
theorem addToSession_eq (r : WindowResult) (x : Session) : addToSession r x =
    { x with
      gross := min (x.gross + r.gross) (2 ^ 40 - 1)
      net := min (x.net + r.net) (2 ^ 40 - 1)
      overrun := min (x.net + r.net) (2 ^ 40 - 1) - x.hold * 1000000
      saturated := x.saturated || decide (2 ^ 40 ≤ x.gross + r.gross) || decide (2 ^ 40 ≤ x.net + r.net)
      uncompensated := x.uncompensated || r.fallback } := rfl

/-- Below saturation and with a valid reading, the figures alone change. -/
theorem addToSession_exact {r : WindowResult} {x : Session} (gross : x.gross + r.gross < 2 ^ 40)
    (net : x.net + r.net < 2 ^ 40) (compensated : r.fallback = false) : addToSession r x =
      { x with
        gross := x.gross + r.gross, net := x.net + r.net, overrun := x.net + r.net - x.hold * 1000000 } := by
  rw [addToSession_eq, compensated, Nat.min_eq_left (by omega), Nat.min_eq_left (by omega),
    decide_eq_false (Nat.not_le.2 gross), decide_eq_false (Nat.not_le.2 net)]
  simp only [Bool.or_false]

theorem distribute_session {id : HoseId} {h : Hose} {x : Session} {k : Compartment} {s : State} (m : MeterId)
    (r : WindowResult) (at_id : s.hoses.get id = h) (session : h.session = some x)
    (at_comp : s.compartments.get x.compartment = k)
    (fits : min r.net (x.hold * 1000000 - x.net) ≤ k.committed) : distribute m (.session id) r s =
      compareRestock x.compartment
        { s with
          hoses := s.hoses.set id { h with session := some (addToSession r x) }
          compartments := s.compartments.set x.compartment
            { k with
              book := k.book - r.net, dispensed := k.dispensed + r.net
              committed := k.committed - min r.net (x.hold * 1000000 - x.net) } } := by
  simp only [distribute, toSession, at_id, session]
  exact debit_eq r.net at_comp fits

theorem distribute_run {id : HoseId} {h : Hose} {s : State} (m : MeterId) (r : WindowResult)
    (at_id : s.hoses.get id = h) : distribute m (.run id) r s =
      { s with
        hoses := s.hoses.set id
          { h with run := h.run.map (fun x => { x with indicated := min (x.indicated + r.gross) (2 ^ 40 - 1) }) } } := by
  subst at_id
  rfl

theorem distribute_load {slot : Nat} {o : LoadOrder} {k : Compartment} {s : State} (m : MeterId) (r : WindowResult)
    (found : tableGet s.loads.orders slot = some o) (at_comp : s.compartments.get o.compartment = k) :
    distribute m (.load slot) r s = compareRestock o.compartment
      { s with
        loads := { s.loads with
          orders := tableSet s.loads.orders slot
            { o with gross := min (o.gross + r.gross) (2 ^ 40 - 1), net := min (o.net + r.net) (2 ^ 40 - 1) } }
        compartments := s.compartments.set o.compartment
          { k with book := k.book + r.net, loaded := k.loaded + r.net } } := by
  subst at_comp
  simp only [distribute, toOrder, found]
  rfl

/-! ### Unattributed volume (R106, R107, R146) -/

/-- Unattributed volume leaves the last source compartment, where there is one. -/
theorem debitLastSource_eq {id : HoseId} {h : Hose} {s u : State} {net : Nat} (at_id : s.hoses.get id = h)
    (uIs : (h.lastSource = none ∧ u = s)
      ∨ ∃ comp k, h.lastSource = some comp ∧ s.compartments.get comp = k
        ∧ u = compareRestock comp { s with
          compartments := s.compartments.set comp
            { k with book := k.book - net, dispensed := k.dispensed + net } }) : debitLastSource id net s = u := by
  rcases uIs with ⟨none, rfl⟩ | ⟨comp, k, source, at_comp, rfl⟩
  · simp only [debitLastSource, at_id, none]
  · simp only [debitLastSource, at_id, source]
    exact debit_eq net at_comp (Nat.zero_le _)

theorem debitLastSource_hoses (id : HoseId) (net : Nat) (s : State) : (debitLastSource id net s).hoses = s.hoses := by
  unfold debitLastSource debit
  split <;> simp

theorem debitLastSource_channels (id : HoseId) (net : Nat) (s : State) :
    (debitLastSource id net s).channels = s.channels := by
  unfold debitLastSource debit
  split <;> simp

/-- R106, R107: the channel's unattributed volume rises, the last source is debited, and the creep test follows. -/
theorem distribute_hoseNobody {id : HoseId} {h : Hose} {r : WindowResult} {s u added : State} {total : Nat}
    (at_id : s.hoses.get id = h)
    (totalIs : total = min ((s.channels.get id.meter).unattributed + r.net) (2 ^ 48 - 1))
    (addedIs : added = { s with
      channels := s.channels.set id.meter { s.channels.get id.meter with unattributed := total } })
    (uIs : debitLastSource id r.net added = u) : distribute id.meter (.hoseNobody id) r s =
      if 0 < r.net ∧ h.leakLatch = false ∧ h.setup.creepLimit * 100000 < total then
        stopFault id .fault (report (.hose id) .leak id.number ((total / 1000 : Nat) : Int)
          { u with hoses := s.hoses.set id { h with leakLatch := true } })
      else u := by
  have addedEq : addUnattributed id.meter r.net s = added := by rw [addedIs, totalIs]; rfl
  have hoses : u.hoses = s.hoses := by rw [← uIs, debitLastSource_hoses, addedIs]
  have unattributed : (u.channels.get id.meter).unattributed = total := by
    rw [← uIs, debitLastSource_channels, addedIs, ByFour_get_set]
  simp only [distribute, addedEq, uIs, creepTest, hoses, at_id, unattributed, setHose]

/-! ### The windows of a paused and of an idle hose -/

section
variable {id : HoseId} {h : Hose} {reading : Int} {r : WindowResult} {gr nr : Nat} {c closed : Channel} {s : State}
  (at_id : s.hoses.get id = h) (at_m : s.channels.get id.meter = c)
  (below : c.debt * (s.store.meters.get id.meter).pulseVolume ≤ 2000000) (low : -500 ≤ reading) (high : reading ≤ 1000)
  (computed : computeWindow id.meter (ownerOf id.meter s) reading
    (setChannel id.meter { c with reverseMark := false } s) = (r, gr, nr))
  (closedIs : closed = { c with
    n := 0, first := none, last := none, reverseMark := false, grossResidue := gr, netResidue := nr
    lastFlow := r.q, probeValid := true, totaliser := (c.totaliser + r.gross) % 10 ^ 14
    wraps := if c.totaliser + r.gross < 10 ^ 14 then c.wraps else min (c.wraps + 1) 65535
    result := some r, fullReported := false })

include low high computed in
/-- A valid reading takes no fallback temperature. -/
theorem fallback_of_valid : r.fallback = false := by
  have is : (!tempValid reading) = r.fallback := congrArg (fun p => p.1.fallback) computed
  rw [← is, (tempValid_iff reading).2 ⟨low, high⟩]
  rfl

include at_m below low high computed closedIs

/-- Without debt above the limit and with a valid reading, a window is its distribution and its hand-over. -/
theorem channelWindow_quiet : channelWindow id.meter reading s =
    handToHose id r (distribute id.meter (ownerOf id.meter s) r (setChannel id.meter closed s)) := by
  have tested := reverseTest_below at_m below
  have closes : closeWindow r gr nr { c with reverseMark := false } = closed := by
    rw [closeWindow_eq, fallback_of_valid low high computed, closedIs]
    rfl
  have probed : probeTest id.meter reading (reverseTest id.meter s) = reverseTest id.meter s := by
    rw [probeTest_eq rfl]
    exact if_neg (by omega)
  rw [← tested] at computed
  rw [channelWindow_eq computed _ probed.symm _ rfl, meterHose_meter, tested, ← closes]
  simp [setChannel]

include at_id

/-- R145: the window of a paused hose goes to its session. -/
theorem channelWindow_paused {x : Session} {k : Compartment} (paused : h.state = .paused)
    (session : h.session = some x) (at_comp : s.compartments.get x.compartment = k)
    (gross : x.gross + r.gross < 2 ^ 40) (net : x.net + r.net < 2 ^ 40)
    (fits : min r.net (x.hold * 1000000 - x.net) ≤ k.committed) : channelWindow id.meter reading s =
      compareRestock x.compartment
        { s with
          channels := s.channels.set id.meter closed
          hoses := s.hoses.set id
            { h with
              session := some
                { x with
                  gross := x.gross + r.gross, net := x.net + r.net, overrun := x.net + r.net - x.hold * 1000000 } }
          compartments := s.compartments.set x.compartment
            { k with
              book := k.book - r.net, dispensed := k.dispensed + r.net
              committed := k.committed - min r.net (x.hold * 1000000 - x.net) } } := by
  rw [channelWindow_quiet at_m below low high computed closedIs, ownerOf_session at_id (by rw [paused]; rfl),
    distribute_session _ r (s := setChannel id.meter closed s) at_id session at_comp fits,
    addToSession_exact gross net (fallback_of_valid low high computed)]
  exact handToHose_rests rfl (by simp [paused])

/-- R106, R146: the window of an IDLE hose goes to nobody and leaves its last source. -/
theorem channelWindow_idle {comp : CompId} {k : Compartment} (idle : h.state = .idle) (source : h.lastSource = some comp)
    (at_comp : s.compartments.get comp = k) (leaked : h.leakLatch = true)
    (unsaturated : c.unattributed + r.net < 2 ^ 48) : channelWindow id.meter reading s =
      compareRestock comp
        { s with
          channels := s.channels.set id.meter { closed with unattributed := c.unattributed + r.net }
          compartments := s.compartments.set comp
            { k with book := k.book - r.net, dispensed := k.dispensed + r.net } } := by
  have at_closed : (setChannel id.meter closed s).channels.get id.meter = closed := by simp [setChannel]
  have total : min (closed.unattributed + r.net) (2 ^ 48 - 1) = c.unattributed + r.net := by
    have unattributed : closed.unattributed = c.unattributed := by rw [closedIs]
    rw [unattributed]
    exact Nat.min_eq_left (by omega)
  have left := distribute_hoseNobody (r := r) (s := setChannel id.meter closed s) at_id
    (by rw [at_closed, total]) rfl (debitLastSource_eq at_id (.inr ⟨comp, k, source, at_comp, rfl⟩))
  rw [if_neg (by simp [leaked])] at left
  rw [channelWindow_quiet at_m below low high computed closedIs, ownerOf_nobody at_id (by rw [idle]; rfl), left,
    at_closed]
  simp only [setChannel, ByFour_set_set]
  exact handToHose_rests rfl (by simp [at_id, idle])

end

/-- Settles O40: the expiry whole; a paused and an idle hose's window; then owner, tests and distribution one by one. -/
theorem windowDistributionFollowsR139R148 : Obligations.WindowDistributionFollowsR139R148 := by
  refine ⟨fun s => ⟨fun running t u v uIs vIs => ?_, fun id h reading r gr nr c k comp closed at_id at_m at_comp below
      low high computed closedIs => ⟨fun x paused session fromComp gross net fits => ?_,
        fun idle source leaked unsaturated => ?_⟩⟩,
    fun m reading s c at_m => ⟨fun o tested r gr nr probed oIs testedIs computed probedIs taken takenIs => ?_,
      fun above aboveIs => ⟨fun isBelow => ?_, fun isAbove marked => ?_, fun isAbove fresh => ?_⟩,
      probeTest_eq at_m reading, fun r gr nr => closeWindow_eq r gr nr c⟩,
    fun id h r s at_id => ⟨ownerOf_session at_id, ownerOf_run at_id, ownerOf_nobody at_id,
      fun x k net session at_comp netIs fits => ?_, distribute_run id.meter r at_id,
      fun u total added totalIs addedIs uIs => ?_⟩,
    fun r s => ⟨ownerOf_inlet s, rfl, fun slot o k found at_comp => distribute_load .four r found at_comp⟩⟩
  · rw [exec_windowExpiry, execWindowExpiry, fieldRow_running running, vIs, uIs]
    rfl
  · subst fromComp
    exact channelWindow_paused at_id at_m below low high computed closedIs paused session at_comp gross net fits
  · exact channelWindow_idle at_id at_m below low high computed closedIs idle source at_comp leaked unsaturated
  · subst oIs testedIs
    rw [channelWindow_eq computed probed probedIs taken takenIs]
    cases m <;> rfl
  · exact reverseTest_below at_m (Nat.not_lt.1 (of_decide_eq_false (aboveIs ▸ isBelow)))
  · exact reverseTest_marked at_m (of_decide_eq_true (aboveIs ▸ isAbove)) marked
  · exact reverseTest_reports at_m (of_decide_eq_true (aboveIs ▸ isAbove)) fresh
  · rw [distribute_session id.meter r at_id session at_comp fits, addToSession_eq, netIs]
  · have debited : debitLastSource id r.net added = u := by
      subst addedIs
      exact debitLastSource_eq at_id uIs
    exact distribute_hoseNobody at_id totalIs addedIs debited

end Sys2Proof.Machine
end

section
/-! PROOFS. Power (R103, R111, R125, R183): the power-fail warning and its closes, the hold-off's warm reset, the loss of
main power, and the statement. -/

namespace Sys2Proof.Machine

/-! ### The closes of the power-fail warning (R125) -/

theorem sameElsewhere_closeSession (id : HoseId) (cause : Option StopCause) (s : State) :
    SameElsewhere s (closeSession id cause s) := by
  cases session : (s.hoses.get id).session with
  | none =>
    rw [closeSession_none session]
    rfl
  | some x =>
    rw [closeSession_eq session rfl]
    exact ((sameElsewhere_closeParts ..).trans (sameElsewhere_setHose ..)).trans (sameElsewhere_raise ..)

theorem sameElsewhere_powerCloses (id : HoseId) (s : State) : SameElsewhere s (powerCloses id s) := by
  unfold powerCloses
  split
  · exact sameElsewhere_closeSession ..
  · rfl

/-- A closed session's hose holds no open session. -/
theorem closedHose_not_open (id : HoseId) (x : Session) (stop : StopCause) (h : Hose) (s : State) :
    openState (closedHose id x stop h s).state = false := by
  unfold closedHose
  dsimp only
  split
  · rfl
  · split <;> rfl

/-- What the warning leaves at a hose: an open session closed with cause POWER, any other hose as it was. -/
def PowerClosed (h h' : Hose) : Prop :=
  (openState h.state = true → ∀ x, h.session = some x →
    openState h'.state = false ∧ h'.session.bind Session.stopCause = some .power)
  ∧ (openState h.state = false → h' = h)

theorem powerCloses_closed (id : HoseId) (s : State) :
    PowerClosed (s.hoses.get id) ((powerCloses id s).hoses.get id) := by
  unfold powerCloses
  split
  next isOpen =>
    refine ⟨fun _ x session => ?_, fun notOpen => absurd isOpen (by simp [notOpen])⟩
    rw [closeSession_eq session rfl, raise_hoses, setHose_hoses, ByHose_get_set]
    exact ⟨closedHose_not_open .., rfl⟩
  next notOpen => exact ⟨fun isOpen => absurd isOpen notOpen, fun _ => rfl⟩

theorem powerCloses_others {id g : HoseId} (s : State) (ne : g ≠ id) :
    (powerCloses id s).hoses.get g = s.hoses.get g := by
  unfold powerCloses
  split
  · exact closeSession_hoses_ne _ s ne
  · rfl

theorem powerCloses_rests {id : HoseId} {s : State} (notOpen : openState (s.hoses.get id).state = false) :
    powerCloses id s = s := by simp [powerCloses, notOpen]

/-- The hoses take the warning in number order (notes/assumptions/48.md). -/
def powerClosesAll (s : State) : State := powerCloses .h3 (powerCloses .h2 (powerCloses .h1 s))

theorem powerClosesAll_elsewhere (s : State) : SameElsewhere s (powerClosesAll s) :=
  ((sameElsewhere_powerCloses .h1 s).trans (sameElsewhere_powerCloses .h2 _)).trans (sameElsewhere_powerCloses .h3 _)

/-- Each hose is closed by its own step alone. -/
theorem powerClosesAll_closed (s : State) (id : HoseId) :
    PowerClosed (s.hoses.get id) ((powerClosesAll s).hoses.get id) := by
  unfold powerClosesAll
  cases id with
  | h1 =>
    rw [powerCloses_others _ (by decide), powerCloses_others _ (by decide)]
    exact powerCloses_closed .h1 s
  | h2 =>
    rw [powerCloses_others _ (by decide), ← powerCloses_others (id := .h1) s (by decide)]
    exact powerCloses_closed .h2 _
  | h3 =>
    rw [← powerCloses_others (id := .h1) s (by decide), ← powerCloses_others (id := .h2) (powerCloses .h1 s) (by decide)]
    exact powerCloses_closed .h3 _

theorem powerClosesAll_rests {s : State} (noneOpen : ∀ id, openState (s.hoses.get id).state = false) :
    powerClosesAll s = s := by
  simp only [powerClosesAll, powerCloses_rests (noneOpen _)]

theorem warningAsserted_eq (s : State) : warningAsserted s =
    { powerClosesAll s with timebase := { s.timebase with holdOff := some (s.timebase.now + 20) } } := by
  have time : (powerClosesAll s).timebase = s.timebase := by rw [powerClosesAll_elsewhere s]
  rw [← time]
  rfl

/-! ### The warning's row (R183) -/

section
variable {asserted : Bool} {s moved : State} (moves : s.field.levels.powerFail ≠ asserted)
include moves

/-- At a running controller the warning is its event alone: no held reset waits for its release. -/
theorem exec_powerFailWarning_running (running : s.supply.power = .running)
    (movedIs : moved = { s with
      field := { s.field with
        levels := { s.field.levels with powerFail := asserted }
        changed := { s.field.changed with powerFail := true } } }) :
    exec (.powerFailWarning asserted) s =
      happens (if asserted then warningAsserted moved else warningReleased moved) := by
  have power : (if asserted then warningAsserted moved else warningReleased moved).supply = s.supply := by
    split
    · rw [warningAsserted_eq, powerClosesAll_elsewhere, movedIs]
    · rw [movedIs]
      rfl
  have notHeld : (evaluatePermit (if asserted then warningAsserted moved else warningReleased moved)).supply.power
      ≠ .held := by simp [evaluatePermit, power, running]
  have row : switchStep s.field.levels.powerFail asserted placePowerFail
      (if asserted then warningAsserted else warningReleased) s =
      evaluatePermit (if asserted then warningAsserted moved else warningReleased moved) := by
    rw [switchStep_running moves running, movedIs]
    cases asserted <;> rfl
  rw [exec_powerFailWarning, execPowerFailWarning, powerFailWarning, row]
  exact congrArg Host.Outcome.next (if_neg fun held => notHeld held.1)

/-- The release completes a held reset. -/
theorem exec_powerFailWarning_held (held : s.supply.power = .held) (released : asserted = false) :
    exec (.powerFailWarning asserted) s = happens (raise .restarted
      { s with
        field := { s.field with levels := { s.field.levels with powerFail := false } }
        timebase := { s.timebase with
          windowStart := s.timebase.now
          lastReset := { kind := .warm, cause := .powerFail, count := s.timebase.count } }
        supply := { s.supply with power := .running } }) := by
  subst released
  have stopped : s.supply.power ≠ .running := by simp [held]
  rw [exec_powerFailWarning, execPowerFailWarning, powerFailWarning, switchStep_stopped moves stopped]
  exact congrArg Host.Outcome.next (if_pos ⟨held, rfl⟩)

end

/-! ### The hold-off's warm reset (R111, R183) -/

/-- The end of a reset with the notice set empty and its mask full. -/
theorem endReset_quiet (cause : ResetCause) {w : State} (mask : w.noticeMask = BitVec.ofNat 8 255)
    (quiet : w.notices = []) : endReset .warm cause w = evaluatePermit
      { w with
        timebase := { w.timebase with
          windowStart := w.timebase.now
          lastReset := { kind := .warm, cause := cause, count := w.timebase.count } }
        supply := { w.supply with power := .running }
        notices := [.restarted] } := by
  rw [endReset, raise_restarted _ (by exact mask) (by exact quiet)]

/-- Every drive of a hose is off after a warm reset. -/
theorem warmedHose_outputs (id : HoseId) (h : Hose) (s : State) : (warmedHose id h s).outputs = Outputs.rest := by
  unfold warmedHose endedHose
  split
  · rfl
  · split
    · split <;> rfl
    · split <;> rfl

/-- A warm reset before its end: its blocks, with what its hoses left elsewhere as it was. -/
theorem beginWarm_blocks (s : State) : beginWarm s = warmBlocks (warmLoads (abortGauges (warmHoses s))) := rfl

section
variable (s : State)

theorem beginWarm_outputs (id : HoseId) : ((beginWarm s).hoses.get id).outputs = Outputs.rest := by
  have hoses : (beginWarm s).hoses = (warmHoses s).hoses := by
    rw [beginWarm_blocks, warmLoads_abortGauges]
    rfl
  rw [hoses, warmHoses_hoses, warmedHose_outputs]

theorem beginWarm_kept : (beginWarm s).timebase = warmTimebase s.timebase
    ∧ (beginWarm s).channels = s.channels.map warmChannel
    ∧ (beginWarm s).field.levels = s.field.levels
    ∧ (beginWarm s).supply = s.supply := by
  rw [beginWarm_blocks, warmLoads_abortGauges, warmHoses_elsewhere s]
  exact ⟨rfl, rfl, rfl, rfl⟩

theorem beginWarm_closes : (beginWarm s).loads.valveOpen = false := by
  rw [beginWarm_blocks, warmLoads_abortGauges]
  rfl

/-- R148: a warm reset keeps the totalisers and their wrap counts. -/
theorem beginWarm_totals : totals (beginWarm s) = totals s := by
  obtain ⟨-, channels, -, -⟩ := beginWarm_kept s
  rw [totals, channels]
  rfl

/-- The reset is held while the warning stays ASSERTED. -/
theorem holdOffExpires_held (warned : s.field.levels.powerFail = true) :
    holdOffExpires s = { beginWarm s with supply := { (beginWarm s).supply with power := .held } } := by
  obtain ⟨-, -, levels, -⟩ := beginWarm_kept s
  exact if_pos (by rw [levels, warned])

theorem holdOffExpires_released (released : s.field.levels.powerFail = false) :
    holdOffExpires s = endReset .warm .powerFail (beginWarm s) := by
  obtain ⟨-, -, levels, -⟩ := beginWarm_kept s
  exact if_neg (by simp [levels, released])

/-- A state that shows at these blocks what a warm reset has made of `s` by its end or its being held. -/
def ShowsWarm (t : State) : Prop :=
  t.timebase.holdOff = none ∧ t.port = Port.cold ∧ t.loads.valveOpen = false
    ∧ (∀ id, (t.hoses.get id).outputs = Outputs.rest) ∧ totals t = totals s

/-- The warm reset itself shows it: its blocks are those of `beginWarm_blocks`. -/
theorem beginWarm_shows : ShowsWarm s (beginWarm s) := by
  obtain ⟨time, -, -, -⟩ := beginWarm_kept s
  exact ⟨by rw [time]; rfl, by rw [beginWarm_blocks]; rfl, beginWarm_closes s, beginWarm_outputs s, beginWarm_totals s⟩

end

theorem ShowsWarm.hold {s w : State} {supply : Supply} (shows : ShowsWarm s w) :
    ShowsWarm s { w with supply := supply } := shows

theorem endReset_shows {s w : State} {cause : ResetCause} (shows : ShowsWarm s w)
    (mask : w.noticeMask = BitVec.ofNat 8 255) (quiet : w.notices = []) :
    ShowsWarm s (endReset .warm cause w) := by
  rw [endReset_quiet cause mask quiet]
  exact shows

theorem beginWarm_mask (s : State) : (beginWarm s).noticeMask = BitVec.ofNat 8 255 := by rw [beginWarm_blocks]; rfl

theorem beginWarm_quiet (s : State) : (beginWarm s).notices = [] := by rw [beginWarm_blocks]; rfl

theorem holdOffExpires_shows (s : State) : ShowsWarm s (holdOffExpires s) := by
  cases warning : s.field.levels.powerFail with
  | true =>
    rw [holdOffExpires_held s warning]
    exact (beginWarm_shows s).hold
  | false =>
    rw [holdOffExpires_released s warning]
    exact endReset_shows (beginWarm_shows s) (beginWarm_mask s) (beginWarm_quiet s)

/-- What the host sees of the expiry: a held reset without DRIVE PERMIT, notice or record, or a completed one with its own. -/
theorem holdOffExpires_held_shows {s : State} (warned : s.field.levels.powerFail = true) :
    (holdOffExpires s).supply.power = .held ∧ (holdOffExpires s).drivePermit = false ∧ (holdOffExpires s).notices = []
    ∧ (holdOffExpires s).timebase.lastReset = s.timebase.lastReset := by
  obtain ⟨time, -, -, -⟩ := beginWarm_kept s
  rw [holdOffExpires_held s warned, time]
  exact ⟨rfl, by rw [beginWarm_blocks]; rfl, beginWarm_quiet s, rfl⟩

theorem holdOffExpires_released_shows {s : State} (released : s.field.levels.powerFail = false) :
    (holdOffExpires s).supply.power = .running ∧ (holdOffExpires s).notices = [.restarted]
    ∧ (holdOffExpires s).timebase.lastReset = { kind := .warm, cause := .powerFail, count := s.timebase.count } := by
  obtain ⟨time, -, -, -⟩ := beginWarm_kept s
  rw [holdOffExpires_released s released, endReset_quiet _ (beginWarm_mask s) (beginWarm_quiet s)]
  generalize beginWarm s = w at time ⊢
  exact ⟨rfl, rfl, by simp only [evaluatePermit, time, warmTimebase]⟩

/-! ### Main power (R183) -/

/-- A hose without main power: every drive off, a running rewind interrupted (notes/assumptions/16.md). -/
theorem unpoweredHose_eq (id : HoseId) (s : State) : unpoweredHose id s =
    setHose id { stilledHose (s.hoses.get id) with outputs := Outputs.rest } s := by
  simp only [unpoweredHose, stopRewind_restHose, setHose_setHose, setHose_hoses, ByHose_get_set]

/-- Settles O54, row by row. -/
theorem powerFollowsR183 : Obligations.PowerFollowsR183 := by
  refine fun s => ⟨fun lost sound => ⟨_, ?_, rfl⟩, rfl, fun running => ?_, fun ready => ?_,
    fun asserted moved moves movedIs => ⟨fun running isAsserted noneOpen => ?_, fun running isAsserted => ?_,
      fun running released => ?_, fun held released => exec_powerFailWarning_held moves held released⟩,
    fun running d runs => ?_, ?_⟩
  · rw [exec_powerUp, execPowerUp, powerUp, if_pos lost]
    simp only [coldReset, checkStore, sound]
    rfl
  · rw [exec_resetPin, execResetPin, fieldRow_running running, happens, evaluatePermit_warmReset]
  · rw [exec_restart, execRestart, hostRow_waits ready rfl, happens, evaluatePermit_warmReset]
  · rw [exec_powerFailWarning_running moves running movedIs, if_pos isAsserted, warningAsserted_eq,
      powerClosesAll_rests (fun id => by rw [openState_eq, movedIs]; exact noneOpen id), movedIs]
  · rw [exec_powerFailWarning_running moves running movedIs, if_pos isAsserted, warningAsserted_eq]
    refine ⟨_, rfl, by rw [movedIs]; rfl, fun id => ?_⟩
    have closed := powerClosesAll_closed moved id
    have same : moved.hoses.get id = s.hoses.get id := by rw [movedIs]
    rw [same] at closed
    exact closed
  · rw [exec_powerFailWarning_running moves running movedIs, if_neg (by simp [released]), movedIs]
    rfl
  · obtain ⟨holdOff, port, valve, outputs, kept⟩ := holdOffExpires_shows (reachInstant d s)
    refine ⟨holdOffExpires (reachInstant d s), ?_, holdOff, port, valve, outputs, kept,
      holdOffExpires_held_shows (s := reachInstant d s), holdOffExpires_released_shows (s := reachInstant d s)⟩
    rw [exec_powerFailHoldOffExpiry, execPowerFailHoldOffExpiry, holdOffStep, running, runs]
    rfl
  · refine ⟨mainPowerLost s, rfl, rfl, rfl, ?_, fun id => ?_, ?_⟩ <;>
      simp only [mainPowerLost, unpoweredHose_eq]
    · rfl
    · cases id <;> rfl
    · rfl

end Sys2Proof.Machine
end

section
/-! PROOFS. HOSE STOP, COLLECT and SESSION READ (R123, R131, R132): the reply of each by what stands at the hose. -/

namespace Sys2Proof.Machine

/-- A collected session has its mark already (R131). -/
theorem session_collected_again {x : Session} (already : x.collected = true) : { x with collected := true } = x := by
  rw [← already]

section
variable {n : Nat} {id : HoseId} {h : Hose} {s : State} (named : hoseOf n = some id) (at_id : s.hoses.get id = h)
include named at_id

/-! ### HOSE STOP (R123) -/

/-- An open session is stopped, and the state it reached answers. -/
theorem doHoseStop_open (isOpen : openState h.state = true) {t : State} (stops : stopSession id .hostStop s = t) :
    doHoseStop n s = okWith (u8 (hoseStateCode (t.hoses.get id).state)) t := by
  simp only [doHoseStop, named, at_id, isOpen, if_true, stops]

theorem doHoseStop_refuses (closed : openState h.state = false) : doHoseStop n s = answer .state s := by
  simp [doHoseStop, named, at_id, closed]

/-- A delivering or paused session enters STOPPING. -/
theorem doHoseStop_delivering (delivers : [HoseState.flowing, .slowing, .paused].contains h.state = true) :
    doHoseStop n s = okWith (u8 (hoseStateCode .stopping)) (enterStopping id .hostStop false s) := by
  have reached : ((enterStopping id .hostStop false s).hoses.get id).state = .stopping := by simp [enterStopping]
  rw [doHoseStop_open named at_id (open_of_delivering delivers) (stopSession_delivering at_id _ delivers), reached]

/-- STOPPING keeps its cause, and answers itself. -/
theorem doHoseStop_stopping (stopping : h.state = .stopping) :
    doHoseStop n s = okWith (u8 (hoseStateCode .stopping)) s := by
  rw [doHoseStop_open named at_id (by rw [stopping]; rfl) (stopSession_rests at_id _ (by simp [stopping])), at_id,
    stopping]

/-! ### COLLECT (R131) -/

/-- The checks of COLLECT at a hose with session `x`, and what it answers and writes when they hold. -/
theorem doCollect_session {x y : Session} (number : Nat) (session : h.session = some x)
    (yIs : y = { x with collected := true, due := x.collected && x.due }) :
    doCollect n number s =
      checkedReply [(decide (1 ≤ number ∧ number ≤ 65535), .malformed), (!openState h.state, .state),
          (x.number == number, .state)] s
        (okWith (sessionRecordBytes h y)
          (setHose id (if x.collected then h else
            { h with
              session := some y
              state := if h.state = .complete then .idle else h.state
              returnState := if h.returnState = some .complete then some .idle else h.returnState }) s)) := by
  subst yIs
  simp only [doCollect, named, at_id, session]
  refine ite_eq_checkedReply (by rw [inRange, ← Bool.decide_and, Bool.not_eq_true']) fun _ => ?_
  refine ite_eq_checkedReply (by rw [Bool.not_eq_false']) fun _ => ?_
  refine ite_eq_checkedReply (by simp) fun _ => ?_
  cases already : x.collected with
  | true =>
    simp only [Bool.true_and, session_collected_again already, if_true, setHose_same at_id]
    rfl
  | false => rfl

theorem doCollect_none {number : Nat} (low : 1 ≤ number) (high : number ≤ 65535) (noSession : h.session = none) :
    doCollect n number s = answer .noRecord s := by
  simp [doCollect, named, at_id, inRange_iff.2 ⟨low, high⟩, noSession]

/-! ### SESSION READ (R132) -/

theorem doSessionRead_eq :
    doSessionRead n s = okWith
      (u8 (hoseStateCode h.state) ++ optional sessionBytes h.session ++ optional lastRefusalBytes h.lastRefusal
        ++ (if openState h.state then
              u8 h.lowFlowRun ++ u8 h.overspeedRun ++ timerBytes s.timebase.now (runningTimer h)
            else [])
        ++ (if h.state = .referred then waitingBytes s.timebase.now h else [])) s := by
  simp only [doSessionRead, named, at_id]
  rfl

end

/-! ### A number that names no hose -/

theorem exec_sessionCommands_unnamed {n : Nat} {s : State} (ready : Ready s) (unnamed : hoseOf n = none) :
    exec (.hoseStop n) s = completes (.hoseStop n) .malformed [] s
    ∧ exec (.sessionRead n) s = completes (.sessionRead n) .malformed [] s
    ∧ ∀ number, exec (.collect n number) s = completes (.collect n number) .malformed [] s := by
  refine ⟨(exec_hoseStop n s).trans (hostRow_answers ready ?_), (exec_sessionRead n s).trans (hostRow_answers ready ?_),
    fun number => (exec_collect n number s).trans (hostRow_answers ready ?_)⟩
  · simp only [doHoseStop, unnamed]
    rfl
  · simp only [doSessionRead, unnamed]
    rfl
  · simp only [doCollect, unnamed]
    rfl

/-- Settles O31: HOSE STOP by the state of the hose, COLLECT by its checks, SESSION READ as one reply; then the numbers
that name no hose and the hose without a session. -/
theorem hoseStopCollectReadFollowR123R132 : Obligations.HoseStopCollectReadFollowR123R132 := by
  refine ⟨fun n id h s ready named at_id => ⟨fun isReady t closes => ?_, fun delivers => ?_, fun stopping => ?_,
    fun closed => ?_, fun number x y session yIs => ?_, ?_⟩,
    fun n s ready => ⟨exec_sessionCommands_unnamed ready, fun id number named low high noSession => ?_⟩⟩
  · have stops : stopSession id .hostStop s = t := by
      rw [closes]
      simp only [stopSession, at_id, isReady]
    exact (exec_hoseStop n s).trans
      (hostRow_answers ready (doHoseStop_open named at_id (by rw [isReady]; rfl) stops))
  · refine (exec_hoseStop n s).trans (hostRow_answers ready ((doHoseStop_delivering named at_id delivers).trans ?_))
    subst at_id
    rfl
  · exact (exec_hoseStop n s).trans (hostRow_answers ready (doHoseStop_stopping named at_id stopping))
  · have refuses := doHoseStop_refuses named at_id ((openState_eq h.state).trans closed)
    exact (exec_hoseStop n s).trans (hostRow_answers ready refuses)
  · rw [← openState_eq]
    have replies := doCollect_session named at_id number session yIs
    exact (exec_collect n number s).trans (hostRow_checkedReply ready replies)
  · rw [← openState_eq]
    exact (exec_sessionRead n s).trans (hostRow_answers ready (doSessionRead_eq named at_id))
  · exact (exec_collect n number s).trans (hostRow_answers ready (doCollect_none named rfl low high noSession))

end Sys2Proof.Machine
end

section
/-! PROOFS. Totalisers, wrap counts and store parameters (R148, R153) under the shared operations: none but the close of a
window, the completion of a store write and a reset touches them. -/

namespace Sys2Proof.Machine

/-! ### The figures of the law -/

/-- What the law is about: totalisers with their wrap counts, and the parameters of the store. -/
def metered (s : State) : List (Nat × Nat) × ByFour MeterRecord × ByGrade GradeRecord := (totals s, parameters s)

theorem metered_of_same {s t : State} (channels : t.channels = s.channels) (store : t.store = s.store) :
    metered t = metered s := by
  simp only [metered, totals, parameters, channels, store]

theorem SameElsewhere.metered {s t : State} (h : SameElsewhere s t) : metered t = metered s := by
  rw [h]
  rfl

/-- A channel placed with the totaliser and the wrap count it had. -/
@[simp] theorem setChannel_metered {m : MeterId} {c : Channel} {s : State}
    (total : c.totaliser = (s.channels.get m).totaliser) (wraps : c.wraps = (s.channels.get m).wraps) :
    metered (setChannel m c s) = metered s := by
  cases m <;> simp only [metered, totals, setChannel, ByFour.toList, ByFour.set, List.map, total, wraps] <;> rfl

/-! ### Updates -/

section
variable (s : State)

@[simp] theorem setHose_metered (id : HoseId) (h : Hose) : metered (setHose id h s) = metered s := rfl
@[simp] theorem setReader_metered (id : HoseId) (r : Reader) : metered (setReader id r s) = metered s := rfl
@[simp] theorem setComp_metered (c : CompId) (k : Compartment) : metered (setComp c k s) = metered s := rfl
@[simp] theorem setLoads_metered (x : LoadController) : metered (setLoads x s) = metered s := rfl
@[simp] theorem setOrder_metered (slot : Nat) (o : LoadOrder) : metered (setOrder slot o s) = metered s := rfl
@[simp] theorem setTimebase_metered (x : Timebase) : metered (setTimebase x s) = metered s := rfl
@[simp] theorem reachInstant_metered (t : Nat) : metered (reachInstant t s) = metered s := rfl
@[simp] theorem setBank_metered (i : BankId) (k : Bank) : metered (setBank i k s) = metered s := rfl
@[simp] theorem dropNotice_metered (n : Notice) : metered (dropNotice n s) = metered s := rfl
@[simp] theorem evaluatePermit_metered : metered (evaluatePermit s) = metered s := rfl
@[simp] theorem writeMachine_metered (slot : Nat) (m : MachineRecord) : metered (writeMachine slot m s) = metered s := rfl
@[simp] theorem putMachine_metered (slot : Nat) (m : MachineRecord) : metered (putMachine slot m s) = metered s := rfl
@[simp] theorem writeAccount_metered (slot : Nat) (a : AccountRecord) : metered (writeAccount slot a s) = metered s := rfl
@[simp] theorem putAccount_metered (slot : Nat) (a : AccountRecord) : metered (putAccount slot a s) = metered s := rfl
@[simp] theorem openChannel_metered (m : MeterId) : metered (openChannel m s) = metered s := setChannel_metered rfl rfl

@[simp] theorem raise_metered (n : Notice) : metered (raise n s) = metered s :=
  (sameElsewhere_raise n s).metered

@[simp] theorem report_metered (i : BankId) (kind : ErrorKind) (index : Nat) (detail : Int) :
    metered (report i kind index detail s) = metered s :=
  metered_of_same (report_channels ..) (report_store ..)

/-! ### Records, index and references -/

@[simp] theorem changeAccount_metered (slot : Nat) (f : AccountRecord → AccountRecord) :
    metered (changeAccount slot f s) = metered s := (recordsOnly_changeAccount slot f s).sameElsewhere.metered

@[simp] theorem freeMachine_metered (slot : Nat) (m : MachineRecord) : metered (freeMachine slot m s) = metered s :=
  (recordsOnly_freeMachine slot m s).sameElsewhere.metered

@[simp] theorem moveReference_metered (old new : Option Nat) : metered (moveReference old new s) = metered s := by
  cases old <;> cases new <;> simp [moveReference, addReference, dropReference, apply_ite metered]

@[simp] theorem unindexTank_metered (slot : Nat) (t : Option Tank) : metered (unindexTank slot t s) = metered s :=
  (recordsOnly_unindexTank slot t s).sameElsewhere.metered

@[simp] theorem indexTank_metered (slot : Nat) (kind : TankKind) (t : Option Tank) :
    metered (indexTank slot kind t s) = metered s := by
  cases t <;> rfl

@[simp] theorem verifyMachine_metered (slot : Nat) (m : MachineRecord) :
    metered (verifyMachine slot m s).2 = metered s := by
  unfold verifyMachine
  split
  · rfl
  · split <;> simp

@[simp] theorem verifyAccount_metered (slot : Nat) (a : AccountRecord) :
    metered (verifyAccount slot a s).2 = metered s := by
  unfold verifyAccount
  split
  · rfl
  · split <;> simp

/-- The state beside the result of a check or a judgement. -/
theorem metered_of_result {α : Type} {result : α × State} {x : α} {t : State} {s : State}
    (kept : metered result.2 = metered s) (is : result = (x, t)) : metered t = metered s := by
  rwa [is] at kept

/-! ### Compartments -/

@[simp] theorem compareRestock_metered (c : CompId) : metered (compareRestock c s) = metered s :=
  (sameElsewhere_compareRestock c s).metered

@[simp] theorem debit_metered (c : CompId) (net released : Nat) : metered (debit c net released s) = metered s := by
  simp [debit]

@[simp] theorem credit_metered (c : CompId) (net : Nat) : metered (credit c net s) = metered s := by
  simp [credit]

@[simp] theorem abortGauge_metered (c : CompId) : metered (abortGauge c s) = metered s := by
  rw [abortGauge_eq, setComp_metered]

@[simp] theorem abortHostGauge_metered (c : CompId) : metered (abortHostGauge c s) = metered s := by
  unfold abortHostGauge
  split
  · simp [apply_ite metered]
  · rfl

/-! ### Hoses: ends of sessions, requests, runs and rewinds -/

@[simp] theorem closeSession_metered (id : HoseId) (cause : Option StopCause) :
    metered (closeSession id cause s) = metered s := (sameElsewhere_closeSession id cause s).metered

@[simp] theorem enterStopping_metered (id : HoseId) (cause : StopCause) (atWindow : Bool) :
    metered (enterStopping id cause atWindow s) = metered s := rfl

@[simp] theorem stopSession_metered (id : HoseId) (cause : StopCause) : metered (stopSession id cause s) = metered s := by
  unfold stopSession
  split <;> simp

@[simp] theorem writeRefusal_metered (id : HoseId) (tag : Option Nat) (reason : Reason) :
    metered (writeRefusal id tag reason s) = metered s := rfl

@[simp] theorem endWaiting_metered (id : HoseId) : metered (endWaiting id s) = metered s := rfl

@[simp] theorem endReferred_metered (id : HoseId) (reason : Reason) : metered (endReferred id reason s) = metered s := rfl

@[simp] theorem endRun_metered (id : HoseId) (outcome : RunOutcome) (next : HoseState) :
    metered (endRun id outcome next s) = metered s := by
  simp [endRun]

@[simp] theorem stopFault_metered (id : HoseId) (cause : StopCause) : metered (stopFault id cause s) = metered s := by
  unfold stopFault
  dsimp only
  split <;> simp [apply_ite metered]

@[simp] theorem stopRewind_metered (id : HoseId) (outcome : RewindOutcome) :
    metered (stopRewind id outcome s) = metered s := by
  simp [stopRewind, apply_ite metered]

@[simp] theorem endRewind_metered (id : HoseId) (outcome : RewindOutcome) :
    metered (endRewind id outcome s) = metered s := by
  simp [endRewind, apply_ite metered]

/-! ### Loads -/

@[simp] theorem closeInlet_metered (slot : Nat) (o : LoadOrder) (cause : EndCause) :
    metered (closeInlet slot o cause s) = metered s := rfl

@[simp] theorem endLoading_metered (cause : EndCause) : metered (endLoading cause s) = metered s := by
  unfold endLoading
  split <;> simp

@[simp] theorem meterStop_metered (m : MeterId) : metered (meterStop m s) = metered s := by
  unfold meterStop
  split <;> simp [setInletLock]

@[simp] theorem tryOpenInlet_metered : metered (tryOpenInlet s) = metered s := by
  unfold tryOpenInlet
  split
  · rfl
  · simp [apply_ite metered]

@[simp] theorem startLoadGauge_metered (c : CompId) : metered (startLoadGauge c s) = metered s := by
  simp [startLoadGauge]

@[simp] theorem releaseCompartment_metered (c : CompId) : metered (releaseCompartment c s) = metered s := rfl

@[simp] theorem completeOrder_metered (slot : Nat) (o : LoadOrder) (after : Option Nat) :
    metered (completeOrder slot o after s) = metered s := by
  simp [completeOrder]

@[simp] theorem loadGaugeEnded_metered (net : Option Nat) : metered (loadGaugeEnded net s) = metered s := by
  unfold loadGaugeEnded
  split
  · rfl
  · split <;> simp

@[simp] theorem rollover_metered : metered (rollover s) = metered s := raise_metered ..

end

end Sys2Proof.Machine
end

section
/-! PROOFS. Totalisers and parameters under the commands of the machine and account tables and under authorisation. -/

namespace Sys2Proof.Machine

/-! ### Replies -/

section
variable (s : State)

@[simp] theorem reply_metered (st : Status) (payload : List Byte) : metered (reply st payload s).1 = metered s := rfl
@[simp] theorem okWith_metered (payload : List Byte) : metered (okWith payload s).1 = metered s := rfl
@[simp] theorem answer_metered (st : Status) : metered (answer st s).1 = metered s := rfl

/-- A reply chosen by a test. -/
@[simp] theorem ite_metered {p : Prop} [Decidable p] (r q : Reply) :
    metered (if p then r else q).1 = if p then metered r.1 else metered q.1 := by
  split <;> rfl

/-! ### Machine Table -/

theorem doMachineInstall_metered (f : MachineFields) : metered (doMachineInstall f s).1 = metered s := by
  unfold doMachineInstall
  cases lowestFree s.machines Config.machineSlots <;> simp [addReference]

@[simp] theorem placeAmended_metered (slot : Nat) (old new : MachineRecord) :
    metered (placeAmended slot old new s) = metered s := by
  simp [placeAmended, reindex]

theorem doMachineAmendChange_metered (slot : Nat) (f : MachineFields) :
    metered (doMachineAmendChange slot f s).1 = metered s := by
  unfold doMachineAmendChange
  cases machineAt slot s with
  | none => simp
  | some m =>
    cases looked : verifyMachine slot m s with
    | mk agrees t => cases agrees <;> simp [looked, metered_of_result (verifyMachine_metered ..) looked]

theorem doMachineAmendRewrite_metered (slot : Nat) (f : MachineFields) (used overrun fills : Nat) :
    metered (doMachineAmendRewrite slot f used overrun fills s).1 = metered s := by
  unfold doMachineAmendRewrite
  cases machineAt slot s <;> simp

theorem doMachineRead_metered (slot : Nat) : metered (doMachineRead slot s).1 = metered s := by
  unfold doMachineRead
  cases machineAt slot s <;> simp

theorem doMachineFind_metered (key : MachineKey) : metered (doMachineFind key s).1 = metered s := by
  cases key with
  | tag tag =>
    simp only [doMachineFind, ite_metered]
    split
    · exact answer_metered ..
    · split
      · exact answer_metered ..
      · split
        · exact answer_metered ..
        · simp only [reply_metered, verifyMachine_metered]
  | number number =>
    simp only [doMachineFind, ite_metered]
    split
    · exact answer_metered ..
    · split
      · exact answer_metered ..
      · simp only [reply_metered, verifyMachine_metered]

theorem changeState_metered (origin target : MachineState) (slot : Nat) :
    metered (changeState origin target slot s).1 = metered s := by
  unfold changeState
  cases machineAt slot s with
  | none => simp
  | some m =>
    cases looked : verifyMachine slot m s with
    | mk agrees t => cases agrees <;> simp [looked, metered_of_result (verifyMachine_metered ..) looked]

theorem doMachineSuspend_metered (slot : Nat) : metered (doMachineSuspend slot s).1 = metered s := by
  rw [doMachineSuspend_eq, changeState_metered]

theorem doMachineReinstate_metered (slot : Nat) : metered (doMachineReinstate slot s).1 = metered s := by
  rw [doMachineReinstate_eq, changeState_metered]

theorem doMachineRetire_metered (slot : Nat) : metered (doMachineRetire slot s).1 = metered s := by
  unfold doMachineRetire
  cases machineAt slot s <;> simp

theorem doTagQuery_metered (tag : Nat) : metered (doTagQuery tag s).1 = metered s := by
  simp [doTagQuery]

theorem doRangeWrite_metered (entry : Nat) (e : RangeEntry) : metered (doRangeWrite entry e s).1 = metered s := by
  unfold doRangeWrite
  cases s.ranges[entry]? with
  | none => rfl
  | some old => simp; intros; rfl

theorem doRangeRead_metered (entry : Nat) : metered (doRangeRead entry s).1 = metered s := by
  unfold doRangeRead
  cases s.ranges[entry]? <;> rfl

theorem doDefaultPolicySet_metered (policy : Policy) : metered (doDefaultPolicySet policy s).1 = metered s := by
  cases policy <;> rfl

/-! ### Accounts and prices -/

theorem doAccountOpen_metered (number tier limit : Nat) : metered (doAccountOpen number tier limit s).1 = metered s := by
  unfold doAccountOpen
  cases tierOf tier with
  | none => rfl
  | some t => cases lowestFree s.accounts Config.accountSlots <;> simp

/-- A command that acts on a trusted record. -/
theorem withTrusted_metered {slot : Nat} {a : AccountRecord} {act : State → Reply}
    (acts : ∀ t, metered (act t).1 = metered t) : metered (withTrusted slot a act s).1 = metered s := by
  unfold withTrusted
  cases looked : verifyAccount slot a s with
  | mk agrees t => cases agrees <;> simp [acts, metered_of_result (verifyAccount_metered ..) looked]

theorem doAccountAmendChange_metered (slot number tier limit : Nat) :
    metered (doAccountAmendChange slot number tier limit s).1 = metered s := by
  unfold doAccountAmendChange
  cases tierOf tier with
  | none => rfl
  | some t =>
    cases accountAt slot s with
    | none => simp
    | some a => simp [withTrusted_metered]

theorem doAccountAmendRewrite_metered (slot number tier limit balance period : Nat) (current : PeriodFigures) :
    metered (doAccountAmendRewrite slot number tier limit balance period current s).1 = metered s := by
  unfold doAccountAmendRewrite
  cases tierOf tier with
  | none => rfl
  | some t => cases accountAt slot s <;> simp

theorem doAccountRead_metered (key : AccountKey) : metered (doAccountRead key s).1 = metered s := by
  unfold doAccountRead
  cases accountKeySlot key s with
  | error st => rfl
  | ok slot => cases found : accountAt slot s <;> simp [found]

theorem changeAccountState_metered (origin target : AccountState) (slot : Nat) :
    metered (changeAccountState origin target slot s).1 = metered s := by
  unfold changeAccountState
  cases accountAt slot s with
  | none => simp
  | some a =>
    cases looked : verifyAccount slot a s with
    | mk agrees t => cases agrees <;> simp [looked, metered_of_result (verifyAccount_metered ..) looked]

theorem doAccountStop_metered (slot : Nat) : metered (doAccountStop slot s).1 = metered s := by
  rw [doAccountStop_eq, changeAccountState_metered]

theorem doAccountResume_metered (slot : Nat) : metered (doAccountResume slot s).1 = metered s := by
  rw [doAccountResume_eq, changeAccountState_metered]

theorem doAccountRetire_metered (slot : Nat) : metered (doAccountRetire slot s).1 = metered s := by
  unfold doAccountRetire
  cases accountAt slot s with
  | none => simp
  | some a => simp; intros; rfl

theorem doSettle_metered (slot amount : Nat) : metered (doSettle slot amount s).1 = metered s := by
  unfold doSettle
  cases accountAt slot s <;> simp [withTrusted_metered]

theorem doPeriodClose_metered (slot : Nat) : metered (doPeriodClose slot s).1 = metered s := by
  unfold doPeriodClose
  cases accountAt slot s with
  | none => simp
  | some a =>
    simp only [ite_metered]
    split
    · rfl
    · exact withTrusted_metered s fun t => by cases statementUnread a <;> rfl

theorem doStatementRead_metered (slot : Nat) : metered (doStatementRead slot s).1 = metered s := by
  unfold doStatementRead
  cases accountAt slot s <;> simp

theorem doStatementRelease_metered (slot period : Nat) : metered (doStatementRelease slot period s).1 = metered s := by
  unfold doStatementRelease
  cases accountAt slot s with
  | none => simp
  | some a =>
    simp only [ite_metered]
    split
    · rfl
    · exact withTrusted_metered s fun t => by cases a.previous <;> simp

theorem doPriceWrite_metered (tier : Nat) (grade : Grade) (price : Nat) :
    metered (doPriceWrite tier grade price s).1 = metered s := by
  unfold doPriceWrite
  cases tierOf tier with
  | none => rfl
  | some t => dsimp only; split <;> rfl

/-! ### Authorisation -/

@[simp] theorem checkRecord_metered (slot : Nat) (m : MachineRecord) : metered (checkRecord slot m s).2 = metered s := by
  unfold checkRecord
  cases looked : verifyMachine slot m s with
  | mk agrees u =>
    have kept := metered_of_result (verifyMachine_metered ..) looked
    split
    · rfl
    · cases agrees with
      | false => exact kept
      | true => cases m.state <;> exact kept

@[simp] theorem checkAccount_metered (slot : Nat) : metered (checkAccount slot s).2 = metered s := by
  unfold checkAccount
  cases accountAt slot s with
  | none => rfl
  | some a =>
    cases looked : verifyAccount slot a s with
    | mk agrees u => cases agrees <;> simp [looked, metered_of_result (verifyAccount_metered ..) looked]

theorem judgeTerms_metered (id : HoseId) (t : Terms) : metered (judgeTerms id t s).2 = metered s := by
  unfold judgeTerms
  cases checked : checkAccount t.account s with
  | mk passes u =>
    have kept := metered_of_result (checkAccount_metered ..) checked
    cases passes with
    | false => exact kept
    | true =>
      cases found : accountAt t.account u with
      | none => simp [found, kept]
      | some a => cases hold : settleHold id t a u <;> simp [found, hold, kept]

theorem judgeTank_metered (id : HoseId) (manual : Bool) (t : Terms) (tank : TankKind) (m : MachineRecord) :
    metered (judgeTank id manual t tank m s).2 = metered s := by
  unfold judgeTank
  split
  · rfl
  · split
    · rfl
    · split
      · cases checked : checkAccount t.account s with
        | mk passes u => cases passes <;> exact metered_of_result (checkAccount_metered ..) checked
      · exact judgeTerms_metered ..

theorem judgeTag_metered (id : HoseId) (tag : Nat) : metered (judgeTag id tag s).2 = metered s := by
  unfold judgeTag
  cases hoseCheck id s with
  | some r => rfl
  | none =>
    cases resolve tag s with
    | machine e =>
      cases found : machineAt e.slot s with
      | none => simp [found]
      | some m =>
        cases checked : checkRecord e.slot m s with
        | mk r u =>
          have kept := metered_of_result (checkRecord_metered ..) checked
          cases r with
          | some r => simp [found, checked, kept]
          | none => cases tank : tankOf e.tank m <;> simp [found, checked, tank, judgeTank_metered, kept]
    | range i e =>
      cases policy : e.policy <;> simp [policy, apply_ite Prod.snd, apply_ite metered, judgeTerms_metered]
    | default p => cases p <;> rfl

theorem judgeManual_metered (id : HoseId) (number : Nat) (tank : TankKind) (preset : Option Nat) :
    metered (judgeManual id number tank preset s).2 = metered s := by
  unfold judgeManual
  cases hoseCheck id s with
  | some r => rfl
  | none =>
    cases tableFind (fun _ m => m.number == number) s.machines with
    | none => rfl
    | some e =>
      obtain ⟨slot, m⟩ := e
      cases stored : tankOf tank m with
      | none => simp [stored]
      | some k =>
        cases checked : checkRecord slot m s with
        | mk r u =>
          have kept := metered_of_result (checkRecord_metered ..) checked
          cases r <;> simp [stored, checked, judgeTank_metered, kept]

@[simp] theorem openSession_metered (id : HoseId) (t : Terms) (c : Choice) :
    metered (openSession id t c s) = metered s := by
  have held (u : State) : metered (holdMachine id t c.hold u) = metered u := by
    unfold holdMachine
    split
    · rfl
    · split <;> rfl
  simp [openSession, enterReady, openHoseChannel, holdCompartment, holdAccount, held]

@[simp] theorem enterReferred_metered (id : HoseId) (w : Waiting) : metered (enterReferred id w s) = metered s := by
  simp [enterReferred]

@[simp] theorem authoriseTag_metered (id : HoseId) (tag : Nat) : metered (authoriseTag id tag s) = metered s := by
  unfold authoriseTag
  have kept := judgeTag_metered s id tag
  cases judged : judgeTag id tag s with
  | mk v u =>
    rw [judged] at kept
    cases v <;> simp [kept]

theorem doAuthoriseManual_metered (hose number : Nat) (tank : TankKind) (preset : Option Nat) :
    metered (doAuthoriseManual hose number tank preset s).1 = metered s := by
  unfold doAuthoriseManual
  cases hoseOf hose with
  | none => rfl
  | some id =>
    have kept := judgeManual_metered s id number tank preset
    cases judged : judgeManual id number tank preset s with
    | mk v u =>
      rw [judged] at kept
      cases v <;> simp [judged, kept, authorised]

theorem doReferReplyAccept_metered (hose account : Nat) (grades : GradeSet) (limit : Nat) :
    metered (doReferReplyAccept hose account grades limit s).1 = metered s := by
  unfold doReferReplyAccept
  cases hoseOf hose with
  | none => rfl
  | some id =>
    simp only [ite_metered]
    cases checked : checkAccount account s with
    | mk passes u =>
      have kept := metered_of_result (checkAccount_metered ..) checked
      cases passes with
      | false => simp [kept]
      | true =>
        dsimp only
        cases accountAt account u with
        | none => simp [kept]
        | some a =>
          dsimp only
          generalize replyTerms _ account grades limit = t
          cases judgeReply id t a u <;> simp [authorised, kept]

theorem doReferReplyRefuse_metered (hose : Nat) : metered (doReferReplyRefuse hose s).1 = metered s := by
  unfold doReferReplyRefuse
  cases hoseOf hose <;> simp

theorem doReferReplyRecheck_metered (hose : Nat) : metered (doReferReplyRecheck hose s).1 = metered s := by
  unfold doReferReplyRecheck
  cases hoseOf hose with
  | none => rfl
  | some id =>
    have kept := judgeTag_metered s id (recheckTag id s)
    cases judged : judgeTag id (recheckTag id s) s with
    | mk v u =>
      rw [judged] at kept
      cases v <;> simp [judged, kept]

end

end Sys2Proof.Machine
end

section
/-! PROOFS. Totalisers and parameters under compartments, fault banks, hoses, load orders, sessions, proving runs, reader
ports and the clock. -/

namespace Sys2Proof.Machine

section
variable (s : State)

/-! ### Compartments and probes -/

theorem gaugeEnded_metered (c : CompId) (origin : GaugeOrigin) (net : Option Nat) :
    metered (gaugeEnded c origin net s) = metered s := by
  cases origin <;> simp [gaugeEnded]

theorem failGauge_metered (c : CompId) (g : Gauge) (detail : Nat) : metered (failGauge c g detail s) = metered s := by
  simp [failGauge, gaugeEnded_metered, writeGauge]

theorem completeGauge_metered (c : CompId) (g : Gauge) (settled : Bool) :
    metered (completeGauge c g settled s) = metered s := by
  cases settled <;> simp [completeGauge, gaugeEnded_metered, writeGauge]

theorem takeSample_metered (c : CompId) (r : RawSample) : metered (takeSample c r s) = metered s := by
  unfold takeSample
  dsimp only
  split
  · simp
  · cases sampleCondition r <;>
      simp [goodSample, failGauge_metered, completeGauge_metered, apply_ite metered]

theorem sampleAll_metered (r : ByFour RawSample) : metered (sampleAll r s) = metered s := by
  simp [sampleAll, takeSample_metered]

theorem doCompartmentSetup_metered (comp : Nat) (grade : Option Grade) (capacity threshold : Nat) :
    metered (doCompartmentSetup comp grade capacity threshold s).1 = metered s := by
  unfold doCompartmentSetup
  cases fourOf comp <;> simp

theorem doCompartmentService_metered (comp : Nat) (target : ServiceTarget) :
    metered (doCompartmentService comp target s).1 = metered s := by
  unfold doCompartmentService
  cases fourOf comp <;> cases target <;> simp

theorem doRestate_metered (comp : Nat) (source : RestateSource) : metered (doRestate comp source s).1 = metered s := by
  unfold doRestate
  cases fourOf comp with
  | none => rfl
  | some c =>
    simp only [ite_metered]
    cases restateValue (s.compartments.get c) source <;> simp

theorem doCompartmentRead_metered (comp : Nat) : metered (doCompartmentRead comp s).1 = metered s := by
  unfold doCompartmentRead
  cases fourOf comp <;> rfl

theorem doStrapWrite_metered (comp : Nat) (points : List StrapPoint) :
    metered (doStrapWrite comp points s).1 = metered s := by
  unfold doStrapWrite
  cases fourOf comp <;> simp

theorem doStrapRead_metered (comp : Nat) : metered (doStrapRead comp s).1 = metered s := by
  unfold doStrapRead
  cases fourOf comp <;> rfl

theorem doGauge_metered (comp : Nat) : metered (doGauge comp s).1 = metered s := by
  unfold doGauge
  cases fourOf comp <;> simp

/-! ### Fault banks and notices -/

theorem releaseHose_metered (id : HoseId) : metered (releaseHose id s) = metered s := by
  simp [releaseHose, apply_ite metered]

theorem releaseInlet_metered : metered (releaseInlet s) = metered s := by
  simp [releaseInlet, apply_ite metered]

theorem releaseBank_metered (i : BankId) : metered (releaseBank i s) = metered s := by
  cases i with
  | meter m => cases m <;> simp [releaseBank, meterHose, releaseHose_metered, releaseInlet_metered]
  | hose id => simp [releaseBank, releaseHose_metered]
  | inlet => exact releaseInlet_metered s
  | reader | gauge | table => rfl

theorem doFaultRead_metered (bank : Nat) : metered (doFaultRead bank s).1 = metered s := by
  unfold doFaultRead
  cases bankOf bank <;> rfl

theorem doFaultControl_metered (bank enable : Nat) : metered (doFaultControl bank enable s).1 = metered s := by
  unfold doFaultControl
  cases bankOf bank <;> simp

theorem doFaultClear_metered (bank : Nat) : metered (doFaultClear bank s).1 = metered s := by
  unfold doFaultClear
  cases bankOf bank <;> simp [releaseBank_metered, emptyBank]

theorem doNoticeNext_metered : metered (doNoticeNext s).1 = metered s := by
  unfold doNoticeNext
  cases nextNotice s.notices <;> simp

theorem doNoticeMask_metered (mask : Nat) : metered (doNoticeMask mask s).1 = metered s := by
  unfold doNoticeMask
  split <;> rfl

/-! ### Hoses -/

theorem doHoseSetup_metered (hose : Nat) (f : HoseSetupFields) : metered (doHoseSetup hose f s).1 = metered s := by
  unfold doHoseSetup
  cases hoseOf hose with
  | none => rfl
  | some id => cases formed : setupOf id f <;> simp [formed]

theorem doHoseRead_metered (hose : Nat) : metered (doHoseRead hose s).1 = metered s := by
  unfold doHoseRead
  cases hoseOf hose <;> rfl

theorem doHoseService_metered (hose : Nat) (target : ServiceTarget) :
    metered (doHoseService hose target s).1 = metered s := by
  unfold doHoseService
  cases hoseOf hose <;> cases target <;> simp

theorem doRewind_metered (hose : Nat) : metered (doRewind hose s).1 = metered s := by
  unfold doRewind
  cases hoseOf hose <;> simp

theorem rewindExpires_metered (id : HoseId) : metered (rewindExpires id s) = metered s := by
  simp [rewindExpires, apply_ite metered]

@[simp] theorem takeLineTemp_metered (id : HoseId) (t : Int) : metered (takeLineTemp id t s) = metered s := by
  unfold takeLineTemp
  dsimp only
  split <;> rfl

/-! ### Load orders -/

theorem doLoadCreate_metered (comp : Nat) (grade : Grade) (expected : Nat) (docket : List Byte) :
    metered (doLoadCreate comp grade expected docket s).1 = metered s := by
  unfold doLoadCreate
  cases fourOf comp with
  | none => rfl
  | some c => cases lowestFree s.loads.orders Config.loadSlots <;> simp

theorem startBeforeGauge_metered (c : CompId) : metered (startBeforeGauge c s) = metered s := by
  unfold startBeforeGauge
  split <;> simp

theorem doLoadArm_metered (slot : Nat) : metered (doLoadArm slot s).1 = metered s := by
  unfold doLoadArm
  cases tableGet s.loads.orders slot <;> simp [startBeforeGauge_metered, armOrder, loadCompartment]

@[simp] theorem cancelOrder_metered (slot : Nat) (o : LoadOrder) (cause : EndCause) :
    metered (cancelOrder slot o cause s) = metered s := by
  unfold cancelOrder handGaugeToHost
  dsimp only
  split <;> simp

theorem doLoadCancel_metered (slot : Nat) : metered (doLoadCancel slot s).1 = metered s := by
  unfold doLoadCancel
  cases tableGet s.loads.orders slot with
  | none => simp
  | some o => cases state : o.state <;> simp [state]

theorem doLoadAbort_metered (slot : Nat) : metered (doLoadAbort slot s).1 = metered s := by
  unfold doLoadAbort
  cases tableGet s.loads.orders slot <;> simp

theorem doLoadRead_metered (slot : Nat) : metered (doLoadRead slot s).1 = metered s := by
  unfold doLoadRead
  cases tableGet s.loads.orders slot <;> simp

theorem doLoadRetire_metered (slot : Nat) : metered (doLoadRetire slot s).1 = metered s := by
  unfold doLoadRetire
  cases tableGet s.loads.orders slot <;> simp

theorem doInletSetup_metered (idle arm settle ullage : Nat) :
    metered (doInletSetup idle arm settle ullage s).1 = metered s := by
  simp [doInletSetup]

theorem highLevel_metered (c : CompId) : metered (highLevel c s) = metered s := by
  unfold highLevel
  split
  · rfl
  · simp [apply_ite metered]

theorem armExpires_metered : metered (armExpires s) = metered s := by
  unfold armExpires
  split <;> simp

theorem loadSettleExpires_metered : metered (loadSettleExpires s) = metered s := by
  unfold loadSettleExpires
  split
  · rfl
  · dsimp only
    split <;> simp

/-! ### Sessions and the events that reach a hose -/

theorem startDelivery_metered (id : HoseId) : metered (startDelivery id s) = metered s := by
  unfold startDelivery
  dsimp only
  split
  · rfl
  · split <;> simp

theorem startRun_metered (id : HoseId) : metered (startRun id s) = metered s := by
  unfold startRun
  dsimp only
  split
  · rfl
  · split <;> rfl

theorem startAsserted_metered (id : HoseId) : metered (startAsserted id s) = metered s := by
  unfold startAsserted
  split
  · dsimp only
    split <;> simp [startDelivery_metered, startRun_metered, apply_ite metered]
  · rfl

theorem startReleased_metered (id : HoseId) : metered (startReleased id s) = metered s := by
  unfold startReleased
  split <;> rfl

@[simp] theorem startAuthorisation_metered (id : HoseId) : metered (startAuthorisation id s) = metered s := by
  have starts (tag : Nat) : metered (authorisePair id tag s) = metered s := authoriseTag_metered ..
  unfold startAuthorisation
  split
  · rfl
  · split <;> simp [starts]

theorem nozzleLifted_metered (id : HoseId) : metered (nozzleLifted id s) = metered s := by
  simp [nozzleLifted, setPaired_eq]

theorem nozzleHung_metered (id : HoseId) : metered (nozzleHung id s) = metered s := by
  unfold nozzleHung
  split <;> first | rfl | simp

@[simp] theorem restHose_metered (id : HoseId) : metered (restHose id s) = metered s := rfl

theorem estopHose_metered (id : HoseId) : metered (estopHose id s) = metered s := by
  unfold estopHose
  dsimp only
  split <;> simp [apply_ite metered]

theorem estopAsserted_metered : metered (estopAsserted s) = metered s := by
  simp [estopAsserted, estopHose_metered]

theorem brakeHose_metered (id : HoseId) : metered (brakeHose id s) = metered s := by
  simp [brakeHose, apply_ite metered]

theorem brakeReleased_metered : metered (brakeReleased s) = metered s := by
  simp [brakeReleased, brakeHose_metered]

@[simp] theorem takeTagEvent_metered (id : HoseId) (v : TagEvent) : metered (takeTagEvent id v s) = metered s := by
  obtain ⟨events, taken⟩ := takeTagEvent_eq id v s
  rw [taken]
  rfl

@[simp] theorem pairByTag_metered (id : HoseId) : metered (pairByTag id s) = metered s := by
  simp [pairByTag, apply_ite metered]

theorem tagPresentActs_metered (id : HoseId) (tag : Nat) : metered (tagPresentActs id tag s) = metered s := by
  unfold tagPresentActs
  dsimp only
  split <;> simp [apply_ite metered]

theorem tagLostActs_metered (id : HoseId) (tag : Nat) : metered (tagLostActs id tag s) = metered s := by
  unfold tagLostActs
  dsimp only
  split <;> simp [apply_ite metered, pause]

theorem tagChangedActs_metered (id : HoseId) : metered (tagChangedActs id s) = metered s := by
  unfold tagChangedActs
  dsimp only
  split <;> simp [apply_ite metered]

theorem settleExpires_metered (id : HoseId) : metered (settleExpires id s) = metered s := by
  simp [settleExpires, reportValve, apply_ite metered]

theorem proveSettleExpires_metered (id : HoseId) : metered (proveSettleExpires id s) = metered s := by
  simp [proveSettleExpires, reportValve, settleRun, apply_ite metered]

theorem doHoseStop_metered (hose : Nat) : metered (doHoseStop hose s).1 = metered s := by
  unfold doHoseStop
  cases hoseOf hose <;> simp

theorem doCollect_metered (hose number : Nat) : metered (doCollect hose number s).1 = metered s := by
  unfold doCollect
  cases hoseOf hose with
  | none => rfl
  | some id => cases session : (s.hoses.get id).session <;> simp [session]

theorem doSessionRead_metered (hose : Nat) : metered (doSessionRead hose s).1 = metered s := by
  unfold doSessionRead
  cases hoseOf hose <;> rfl

/-! ### Proving runs -/

theorem doMeterRead_metered (meter : Nat) : metered (doMeterRead meter s).1 = metered s := by
  unfold doMeterRead
  cases fourOf meter <;> rfl

theorem doMetrologyRead_metered (meter : Nat) : metered (doMetrologyRead meter s).1 = metered s := by
  unfold doMetrologyRead
  cases fourOf meter <;> rfl

/-- A write that begins changes no parameter yet (R155). -/
@[simp] theorem beginWrite_metered (c : Instr) (change : StoreChange) : metered (beginWrite c change s).1 = metered s := rfl

theorem doMetrologyWrite_metered (meter pulseVolume : Nat) (points : List LinPoint) :
    metered (doMetrologyWrite meter pulseVolume points s).1 = metered s := by
  unfold doMetrologyWrite
  cases fourOf meter <;> cases points <;> simp

theorem doGradeCoefficientWrite_metered (grade : Grade) (alpha : Nat) (fallback : Int) :
    metered (doGradeCoefficientWrite grade alpha fallback s).1 = metered s := by
  simp [doGradeCoefficientWrite]

theorem doProveStart_metered (hose flow nominal : Nat) : metered (doProveStart hose flow nominal s).1 = metered s := by
  unfold doProveStart
  cases hoseOf hose with
  | none => rfl
  | some id => cases source : provingSource id s <;> simp [source, enterProveReady]

theorem doProveResult_metered (hose observed : Nat) : metered (doProveResult hose observed s).1 = metered s := by
  unfold doProveResult
  cases hoseOf hose with
  | none => rfl
  | some id => cases run : (s.hoses.get id).run <;> simp [run]

theorem doProveAbort_metered (hose : Nat) : metered (doProveAbort hose s).1 = metered s := by
  unfold doProveAbort
  cases hoseOf hose <;> simp

theorem doProveRead_metered (hose : Nat) : metered (doProveRead hose s).1 = metered s := by
  unfold doProveRead
  cases hoseOf hose <;> rfl

/-! ### Reader ports -/

@[simp] theorem closeFrame_metered (h : HoseId) (byBreak : Bool) (f : ReaderFrame) :
    metered (closeFrame h byBreak f s) = metered s := by
  unfold closeFrame damagedFrame soundFrame
  dsimp only
  split
  · simp [apply_ite metered]
  · split <;> rfl

theorem takeEntry_metered (h : HoseId) (e : FifoEntry) : metered (takeEntry h e s) = metered s := by
  unfold takeEntry putFrame
  split
  · rfl
  · dsimp only
    split <;> simp [apply_ite metered]

theorem takeLineEvent_metered (h : HoseId) (v : LineEvent) : metered (takeLineEvent h v s) = metered s := by
  unfold takeLineEvent
  cases (s.readers.get h).frame <;> cases v <;> simp

theorem lineEvent_metered (h : HoseId) (v : LineEvent) : metered (lineEvent h v s) = metered s := by
  unfold lineEvent
  dsimp only
  split
  · exact takeLineEvent_metered ..
  · rfl

theorem breakFound_metered (h : HoseId) (returned : Bool) : metered (breakFound h returned s) = metered s := by
  simp [breakFound, lineEvent_metered, apply_ite metered]

theorem gapFound_metered (h : HoseId) : metered (gapFound h s) = metered s := by
  unfold gapFound
  dsimp only
  split <;> simp [lineEvent_metered]

/-- The events of an entry, taken one after the other. -/
theorem takeLineEvents_metered (h : HoseId) (events : List LineEvent) :
    ∀ s, metered (events.foldl (fun s v => takeLineEvent h v s) s) = metered s := by
  induction events with
  | nil => exact fun _ => rfl
  | cons v rest ih => exact fun s => (ih _).trans (takeLineEvent_metered s h v)

theorem takeFromFifo_metered (h : HoseId) : metered (takeFromFifo h s) = metered s := by
  unfold takeFromFifo
  dsimp only
  split
  · rfl
  · split
    · rfl
    · rw [takeLineEvents_metered, takeEntry_metered, setReader_metered]

theorem silenceExpires_metered (h : HoseId) : metered (silenceExpires h s) = metered s := by
  unfold silenceExpires becomeSilent
  split
  · rfl
  · dsimp only
    split <;> simp

theorem graceExpires_metered (h : HoseId) : metered (graceExpires h s) = metered s := by
  unfold graceExpires graceRunsOut
  split
  · rfl
  · split <;> simp

theorem doReaderSetup_metered (port baud minQuality grace : Nat) :
    metered (doReaderSetup port baud minQuality grace s).1 = metered s := by
  unfold doReaderSetup
  cases hoseOf port <;> simp

theorem doReaderStatus_metered (port : Nat) (clear : Bool) : metered (doReaderStatus port clear s).1 = metered s := by
  unfold doReaderStatus
  cases hoseOf port <;> cases clear <;> rfl

/-! ### Timebase -/

theorem doClockSet_metered (count : Nat) : metered (doClockSet count s).1 = metered s := by
  simp [doClockSet, setCount, apply_ite metered]

theorem doRolloverSet_metered (second : Nat) : metered (doRolloverSet second s).1 = metered s := by
  simp [doRolloverSet]

theorem poweredSecond_metered : metered (poweredSecond s) = metered s := by
  simp [poweredSecond, countSecond, apply_ite metered]

theorem clockSecond_metered : metered (clockSecond s) = metered s := by
  unfold clockSecond
  split <;> simp [poweredSecond_metered, countSecond]

end

end Sys2Proof.Machine
end

section
/-! PROOFS. Totalisers and parameters under pulses, windows, the completion of a store write, and resets. -/

namespace Sys2Proof.Machine

/-! ### Pulses -/

section
variable (s : State)

/-- Pins and their flags move. -/
@[simp] theorem movePin_metered (m : MeterId) (forward : Bool) : metered (movePin m forward s) = metered s := by
  unfold movePin
  dsimp only
  split <;> exact setChannel_metered rfl rfl

theorem moveBothPins_metered (m : MeterId) : metered (moveBothPins m s) = metered s := setChannel_metered rfl rfl

theorem driftBoth_metered (m : MeterId) : metered (driftBoth m s) = metered s := setChannel_metered rfl rfl

theorem driftOne_metered (m : MeterId) (forward : Bool) : metered (driftOne m forward s) = metered s := by
  unfold driftOne
  dsimp only
  split <;> exact setChannel_metered rfl rfl

@[simp] theorem pulserFault_metered (m : MeterId) (kind : ErrorKind) (detail : Nat) :
    metered (pulserFault m kind detail s) = metered s := by
  simp [pulserFault]

@[simp] theorem countForward_metered (m : MeterId) (capture : Nat) : metered (countForward m capture s) = metered s := by
  simp [countForward, apply_ite metered]

@[simp] theorem countReverse_metered (m : MeterId) : metered (countReverse m s) = metered s := setChannel_metered rfl rfl

theorem illegalTransition_metered (m : MeterId) : metered (countIllegal m (moveBothPins m s)) = metered s := by
  simp [countIllegal, moveBothPins_metered, apply_ite metered]

theorem forwardPulse_metered (m : MeterId) (capture : Nat) : metered (forwardPulse m capture s) = metered s := by
  simp [forwardPulse]

theorem reversePulse_metered (m : MeterId) : metered (reversePulse m s) = metered s := by
  simp [reversePulse]

theorem quarterStep_metered (m : MeterId) (forward : Bool) : metered (quarterStep m forward s) = metered s := by
  simp [quarterStep, apply_ite metered]

/-! ### Windows: everything but the channel's own close -/

theorem reverseTest_metered (m : MeterId) : metered (reverseTest m s) = metered s := by
  simp [reverseTest, apply_ite metered]

theorem probeTest_metered (m : MeterId) (reading : Int) : metered (probeTest m reading s) = metered s := by
  simp [probeTest, apply_ite metered]

@[simp] theorem addUnattributed_metered (m : MeterId) (net : Nat) : metered (addUnattributed m net s) = metered s :=
  setChannel_metered rfl rfl

@[simp] theorem debitLastSource_metered (id : HoseId) (net : Nat) : metered (debitLastSource id net s) = metered s := by
  unfold debitLastSource
  split <;> simp

@[simp] theorem creepTest_metered (id : HoseId) (net : Nat) : metered (creepTest id net s) = metered s := by
  simp [creepTest, apply_ite metered]

theorem distribute_metered (m : MeterId) (o : Owner) (r : WindowResult) : metered (distribute m o r s) = metered s := by
  unfold distribute
  split
  · unfold toSession
    dsimp only
    split <;> simp
  · rfl
  · unfold toOrder
    split <;> simp
  · simp
  · simp

theorem deliverResult_metered (id : HoseId) (r : WindowResult) (x : Session) :
    metered (deliverResult id r x s) = metered s := by
  unfold deliverResult
  dsimp only
  split
  · simp
  · split <;> simp [overspeedTest, noFlowTest, stageDuty, apply_ite metered]

theorem handToHose_metered (id : HoseId) (r : WindowResult) : metered (handToHose id r s) = metered s := by
  have held (flowEnd : FlowEnd) (atWindow : Bool) : metered (enterProveHeld id flowEnd atWindow s) = metered s := rfl
  unfold handToHose
  dsimp only
  split
  · split <;> simp [deliverResult_metered]
  · split <;> simp [deliverResult_metered]
  · simp [windowPassed, apply_ite metered]
  · split <;> simp [held, stageDuty, apply_ite metered]
  · split <;> simp [settleRun, windowPassed, apply_ite metered]
  · rfl

theorem handToLoad_metered (r : WindowResult) : metered (handToLoad r s) = metered s := by
  have watch (u : State) : metered (watchValve r u) = metered u := by
    unfold watchValve
    split <;> simp [apply_ite metered]
  have ullage (u : State) : metered (ullageTest u) = metered u := by
    unfold ullageTest
    split <;> simp [apply_ite metered]
  unfold handToLoad
  dsimp only
  split <;> simp [watch, ullage, superviseFlow, apply_ite metered]

theorem parameters_of_metered {s t : State} (kept : metered t = metered s) : parameters t = parameters s :=
  congrArg Prod.snd kept

theorem totals_of_metered {s t : State} (kept : metered t = metered s) : totals t = totals s :=
  congrArg Prod.fst kept

/-- R153: a channel's window, whose close alone writes the totaliser, changes no parameter. -/
theorem channelWindow_parameters (m : MeterId) (reading : Int) :
    parameters (channelWindow m reading s) = parameters s := by
  have closed (u : State) (c : Channel) : parameters (setChannel m c u) = parameters u := rfl
  have tested := parameters_of_metered ((probeTest_metered (reverseTest m s) m reading).trans (reverseTest_metered s m))
  unfold channelWindow
  dsimp only
  split
  · rw [parameters_of_metered (handToHose_metered ..), parameters_of_metered (distribute_metered ..), closed, tested]
  · rw [parameters_of_metered (handToLoad_metered ..), parameters_of_metered (distribute_metered ..), closed, tested]

theorem windowExpires_parameters (t : ByFour Int) : parameters (windowExpires t s) = parameters s := by
  have taken (u : State) : metered (takeLineTemps t u) = metered u :=
    ((takeLineTemp_metered ..).trans (takeLineTemp_metered ..)).trans (takeLineTemp_metered ..)
  have starts (u : State) : metered (tryOpenInlet (startWindow u)) = metered u := tryOpenInlet_metered _
  simp only [windowExpires, parameters_of_metered (starts _), channelWindow_parameters, parameters_of_metered (taken _)]
  rfl

/-! ### The completion of a store write (R155, R156, R163) -/

/-- R148: the store takes the write, and no totaliser with it. -/
theorem storeWritten_totals : totals (storeWritten s) = totals s := by
  unfold storeWritten
  split
  · rfl
  next w _ =>
    have applied : totals (applyWrite w s).1 = totals s := by
      unfold applyWrite
      dsimp only
      split
      · rfl
      · rfl
      · exact (totals_of_metered (endRun_metered (setHose ..) ..)).trans rfl
    exact applied

/-! ### Power and resets (R152, R157, R183) -/

@[simp] theorem mainPowerLost_metered : metered (mainPowerLost s) = metered s := by
  have off (id : HoseId) (u : State) : metered (unpoweredHose id u) = metered u := by
    rw [unpoweredHose_eq, setHose_metered]
  have held (u : State) (loads : LoadController) (permit : Bool) (supply : Supply) :
      metered { u with loads := loads, drivePermit := permit, supply := supply } = metered u := rfl
  rw [mainPowerLost, held, off, off, off]

theorem warningAsserted_metered : metered (warningAsserted s) = metered s := by
  rw [warningAsserted_eq]
  exact (powerClosesAll_elsewhere s).metered

theorem endReset_metered (kind : ResetKind) (cause : ResetCause) : metered (endReset kind cause s) = metered s :=
  raise_metered ..

/-- The store of an undamaged part loses at most a write in progress at a reset (R157). -/
theorem beginWarm_metered (undamaged : s.store.damaged = false) : metered (beginWarm s) = metered s := by
  have store : (beginWarm s).store = checkStore s.store := by
    rw [beginWarm_blocks, warmLoads_abortGauges, warmHoses_elsewhere s]
    rfl
  refine Prod.ext (beginWarm_totals s) ?_
  change parameters (beginWarm s) = parameters s
  simp only [parameters, store, checkStore, undamaged]
  rfl

end

end Sys2Proof.Machine
end

section
/-! PROOFS. The law of totalisers and parameters (R148, R153, R157): what each form of row keeps, every command, and the
statement. -/

namespace Sys2Proof.Machine

/-- The law for one step of a command: totalisers stay, and so do the parameters of an undamaged store. -/
def FiguresKept (s t : State) : Prop :=
  totals t = totals s ∧ (s.store.damaged = false → parameters t = parameters s)

section
variable {s : State}

theorem figuresKept_of_metered {t : State} (kept : metered t = metered s) : FiguresKept s t :=
  ⟨totals_of_metered kept, fun _ => parameters_of_metered kept⟩

theorem FiguresKept.then {t u : State} (h : FiguresKept s t) (kept : metered u = metered t) : FiguresKept s u := by
  obtain ⟨total, parameter⟩ := h
  exact ⟨(totals_of_metered kept).trans total, fun sound => (parameters_of_metered kept).trans (parameter sound)⟩

/-- Totalisers and store do not depend on the instant. -/
theorem FiguresKept.of_reachInstant {instant : Nat} {t : State} (h : FiguresKept (reachInstant instant s) t) :
    FiguresKept s t := h

/-! ### Resets -/

theorem beginWarm_figuresKept (s : State) : FiguresKept s (beginWarm s) :=
  ⟨beginWarm_totals s, fun undamaged => parameters_of_metered (beginWarm_metered s undamaged)⟩

theorem warmReset_figuresKept (cause : ResetCause) : FiguresKept s (warmReset cause s) :=
  (beginWarm_figuresKept s).then (endReset_metered ..)

theorem powerUp_figuresKept (noLoss : s.supply.lossLatch = false) : FiguresKept s (powerUp s) := by
  have returns (u : State) : metered (returnRollover u) = metered u := by simp [returnRollover, apply_ite metered]
  rw [powerUp, noLoss]
  exact (warmReset_figuresKept _).then (returns _)

theorem holdOffExpires_figuresKept : FiguresKept s (holdOffExpires s) := by
  have hold (u : State) (supply : Supply) : metered { u with supply := supply } = metered u := rfl
  cases warned : s.field.levels.powerFail with
  | true =>
    rw [holdOffExpires_held s warned]
    exact (beginWarm_figuresKept s).then (hold ..)
  | false =>
    rw [holdOffExpires_released s warned]
    exact (beginWarm_figuresKept s).then (endReset_metered ..)

/-! ### The forms of a row -/

theorem hostRow_figuresKept {c : Instr} {body : State → Reply} (kept : FiguresKept s (body s).1) :
    ∀ t, hostRow c body s = .next t → FiguresKept s t := by
  rintro _ ⟨⟩
  unfold hostStep
  split
  · split
    · refine kept.then ?_
      unfold deliver
      split <;> rfl
    · exact figuresKept_of_metered rfl
  · exact figuresKept_of_metered rfl
  · exact figuresKept_of_metered rfl

theorem hostRow_metered {c : Instr} {body : State → Reply} (kept : metered (body s).1 = metered s) :
    ∀ t, hostRow c body s = .next t → FiguresKept s t := hostRow_figuresKept (figuresKept_of_metered kept)

/-- What an event's row leaves: its effect at a running controller, nothing otherwise. -/
theorem fieldRow_leaves {act : State → State} {t : State} (runs : fieldRow act s = .next t) :
    t = s ∨ t = evaluatePermit (act s) := by
  cases runs
  unfold fieldStep
  split
  · exact .inr rfl
  · exact .inl rfl
  · exact .inl rfl

theorem fieldRow_figuresKept {act : State → State} (kept : FiguresKept s (act s)) :
    ∀ t, fieldRow act s = .next t → FiguresKept s t := by
  intro t runs
  obtain rfl | rfl := fieldRow_leaves runs
  · exact figuresKept_of_metered rfl
  · exact kept.then rfl

theorem fieldRow_metered {act : State → State} (kept : metered (act s) = metered s) :
    ∀ t, fieldRow act s = .next t → FiguresKept s t := fieldRow_figuresKept (figuresKept_of_metered kept)

/-- A timer's expiry moves the instant on before it acts. -/
theorem expire_metered {timer : Option Nat} {act : State → State} (kept : ∀ u, metered (act u) = metered u) :
    metered (expire timer act s) = metered s := by
  cases timer with
  | none => rfl
  | some t => exact kept _

theorem pulserRow_metered {drift act : State → State} (drifts : metered (drift s) = metered s)
    (kept : metered (act s) = metered s) : ∀ t, pulserRow drift act s = .next t → FiguresKept s t := by
  unfold pulserRow
  split <;> rintro _ ⟨⟩
  · exact figuresKept_of_metered kept
  · exact figuresKept_of_metered drifts
  · exact figuresKept_of_metered drifts

theorem portRow_figuresKept {act : State → Port → Port} : ∀ t, portRow act s = .next t → FiguresKept s t := by
  unfold portRow
  split <;> (rintro _ ⟨⟩; exact figuresKept_of_metered rfl)

theorem switchStep_metered {old new : Bool} {place : Bool → Switches → Switches} {act : State → State}
    (kept : ∀ u, metered (act u) = metered u) : metered (switchStep old new place act s) = metered s := by
  unfold switchStep
  split
  · rfl
  · dsimp only
    split
    · exact kept _
    · rfl
    · rfl

/-- A row that is one state. -/
theorem next_metered {u : State} (kept : metered u = metered s) :
    ∀ t, Host.Outcome.next (φ := Fault) (ρ := Refusal) u = .next t → FiguresKept s t := by
  rintro _ ⟨⟩
  exact figuresKept_of_metered kept

theorem powerFailWarning_metered (asserted : Bool) : metered (powerFailWarning asserted s) = metered s := by
  have acts (u : State) : metered ((if asserted then warningAsserted else warningReleased) u) = metered u := by
    cases asserted
    · rfl
    · exact warningAsserted_metered u
  unfold powerFailWarning
  generalize (if asserted then warningAsserted else warningReleased) = act at acts ⊢
  dsimp only
  split
  · exact (endReset_metered ..).trans (switchStep_metered acts)
  · exact switchStep_metered acts

theorem holdOffStep_figuresKept : FiguresKept s (holdOffStep s) := by
  unfold holdOffStep
  split
  · cases s.timebase.holdOff with
    | none => exact figuresKept_of_metered rfl
    | some t => exact .of_reachInstant (instant := t) holdOffExpires_figuresKept
  · exact figuresKept_of_metered rfl
  · exact figuresKept_of_metered rfl

/-! ### Every command -/

/-- The host's commands, each by what its reply leaves. -/
theorem exec_host_figuresKept {c : Instr} (host : fromHost c = true) : ∀ t, exec c s = .next t → FiguresKept s t := by
  cases c with
  | machineInstall => exact hostRow_metered (doMachineInstall_metered ..)
  | machineAmendChange => exact hostRow_metered (doMachineAmendChange_metered ..)
  | machineAmendRewrite => exact hostRow_metered (doMachineAmendRewrite_metered ..)
  | machineRead => exact hostRow_metered (doMachineRead_metered ..)
  | machineFind => exact hostRow_metered (doMachineFind_metered ..)
  | machineSuspend => exact hostRow_metered (doMachineSuspend_metered ..)
  | machineReinstate => exact hostRow_metered (doMachineReinstate_metered ..)
  | machineRetire => exact hostRow_metered (doMachineRetire_metered ..)
  | tagQuery => exact hostRow_metered (doTagQuery_metered ..)
  | rangeWrite => exact hostRow_metered (doRangeWrite_metered ..)
  | rangeRead => exact hostRow_metered (doRangeRead_metered ..)
  | defaultPolicySet => exact hostRow_metered (doDefaultPolicySet_metered ..)
  | readerSetup => exact hostRow_metered (doReaderSetup_metered ..)
  | readerStatus => exact hostRow_metered (doReaderStatus_metered ..)
  | accountOpen => exact hostRow_metered (doAccountOpen_metered ..)
  | accountAmendChange => exact hostRow_metered (doAccountAmendChange_metered ..)
  | accountAmendRewrite => exact hostRow_metered (doAccountAmendRewrite_metered ..)
  | accountRead => exact hostRow_metered (doAccountRead_metered ..)
  | accountStop => exact hostRow_metered (doAccountStop_metered ..)
  | accountResume => exact hostRow_metered (doAccountResume_metered ..)
  | accountRetire => exact hostRow_metered (doAccountRetire_metered ..)
  | settle => exact hostRow_metered (doSettle_metered ..)
  | periodClose => exact hostRow_metered (doPeriodClose_metered ..)
  | statementRead => exact hostRow_metered (doStatementRead_metered ..)
  | statementRelease => exact hostRow_metered (doStatementRelease_metered ..)
  | priceWrite => exact hostRow_metered (doPriceWrite_metered ..)
  | compartmentSetup => exact hostRow_metered (doCompartmentSetup_metered ..)
  | compartmentService => exact hostRow_metered (doCompartmentService_metered ..)
  | restate => exact hostRow_metered (doRestate_metered ..)
  | compartmentRead => exact hostRow_metered (doCompartmentRead_metered ..)
  | strapWrite => exact hostRow_metered (doStrapWrite_metered ..)
  | strapRead => exact hostRow_metered (doStrapRead_metered ..)
  | gauge => exact hostRow_metered (doGauge_metered ..)
  | authoriseManual => exact hostRow_metered (doAuthoriseManual_metered ..)
  | referReplyAccept => exact hostRow_metered (doReferReplyAccept_metered ..)
  | referReplyRefuse => exact hostRow_metered (doReferReplyRefuse_metered ..)
  | referReplyRecheck => exact hostRow_metered (doReferReplyRecheck_metered ..)
  | hoseSetup => exact hostRow_metered (doHoseSetup_metered ..)
  | hoseRead => exact hostRow_metered (doHoseRead_metered ..)
  | hoseService => exact hostRow_metered (doHoseService_metered ..)
  | rewind => exact hostRow_metered (doRewind_metered ..)
  | hoseStop => exact hostRow_metered (doHoseStop_metered ..)
  | collect => exact hostRow_metered (doCollect_metered ..)
  | sessionRead => exact hostRow_metered (doSessionRead_metered ..)
  | meterRead => exact hostRow_metered (doMeterRead_metered ..)
  | metrologyWrite => exact hostRow_metered (doMetrologyWrite_metered ..)
  | gradeCoefficientWrite => exact hostRow_metered (doGradeCoefficientWrite_metered ..)
  | metrologyRead => exact hostRow_metered (doMetrologyRead_metered ..)
  | proveStart => exact hostRow_metered (doProveStart_metered ..)
  | proveResult => exact hostRow_metered (doProveResult_metered ..)
  | proveAbort => exact hostRow_metered (doProveAbort_metered ..)
  | proveRead => exact hostRow_metered (doProveRead_metered ..)
  | loadCreate => exact hostRow_metered (doLoadCreate_metered ..)
  | loadArm => exact hostRow_metered (doLoadArm_metered ..)
  | loadCancel => exact hostRow_metered (doLoadCancel_metered ..)
  | loadAbort => exact hostRow_metered (doLoadAbort_metered ..)
  | loadRead => exact hostRow_metered (doLoadRead_metered ..)
  | loadRetire => exact hostRow_metered (doLoadRetire_metered ..)
  | inletSetup => exact hostRow_metered (doInletSetup_metered ..)
  | clockSet => exact hostRow_metered (doClockSet_metered ..)
  | rolloverSet => exact hostRow_metered (doRolloverSet_metered ..)
  | faultRead => exact hostRow_metered (doFaultRead_metered ..)
  | faultControl => exact hostRow_metered (doFaultControl_metered ..)
  | faultClear => exact hostRow_metered (doFaultClear_metered ..)
  | noticeNext => exact hostRow_metered (doNoticeNext_metered ..)
  | noticeMask => exact hostRow_metered (doNoticeMask_metered ..)
  | priceRead | fieldStatus | inletRead | windowSet | clockRead | identify => exact hostRow_metered rfl
  | restart => exact hostRow_figuresKept (warmReset_figuresKept .restart)
  | _ => exact absurd host nofun

/-- The events, each by what it does to a running controller; R148 and R153 name the two left out. -/
theorem exec_event_figuresKept {c : Instr} (event : fromHost c = false) (warm : c = .powerUp → s.supply.lossLatch = false)
    (noWindow : ∀ temperatures, c ≠ .windowExpiry temperatures) (noWrite : c ≠ .storeWriteComplete) :
    ∀ t, exec c s = .next t → FiguresKept s t := by
  cases c with
  | windowExpiry temperatures => exact absurd rfl (noWindow temperatures)
  | storeWriteComplete => exact absurd rfl noWrite
  | resetPin => exact fieldRow_figuresKept (warmReset_figuresKept .resetPin)
  | powerUp =>
    rintro _ ⟨⟩
    exact powerUp_figuresKept (warm rfl)
  | powerFailHoldOffExpiry =>
    rintro _ ⟨⟩
    exact holdOffStep_figuresKept
  | retentionSupplyLoss => exact next_metered rfl
  | powerFailWarning => exact next_metered (powerFailWarning_metered _)
  | mainPowerLoss => exact next_metered (mainPowerLost_metered s)
  | siteClockSecond => exact next_metered (clockSecond_metered s)
  | commandTransaction => rw [exec_commandTransaction]; exact portRow_figuresKept
  | readTransaction => rw [exec_readTransaction]; exact portRow_figuresKept
  | linkReset => rw [exec_linkReset]; exact portRow_figuresKept
  | emergencyStop =>
    exact next_metered (switchStep_metered fun u => by split <;> simp [estopAsserted_metered])
  | parkBrake => exact next_metered (switchStep_metered fun u => by split <;> simp [brakeReleased_metered])
  | nozzleSwitch =>
    exact next_metered (switchStep_metered fun u => by split <;> simp [nozzleLifted_metered, nozzleHung_metered])
  | startInput =>
    exact next_metered (switchStep_metered fun u => by split <;> simp [startAsserted_metered, startReleased_metered])
  | stowSwitch => exact next_metered (switchStep_metered fun u => by split <;> simp)
  | inletCoupling => exact next_metered (switchStep_metered fun u => by split <;> simp)
  | highLevelSwitch => exact next_metered (switchStep_metered fun u => by split <;> simp [highLevel_metered])
  | sealSwitch => exact next_metered (switchStep_metered fun u => rfl)
  | receiverCharacter | pwmPeriodStart => exact fieldRow_metered rfl
  | lineBreak => exact fieldRow_metered (breakFound_metered ..)
  | idleEvent => exact fieldRow_metered (gapFound_metered ..)
  | fifoEntryTaken => exact fieldRow_metered (takeFromFifo_metered ..)
  | silenceTimerExpiry => exact fieldRow_metered (silenceExpires_metered ..)
  | graceExpiry => exact fieldRow_metered (graceExpires_metered ..)
  | tagPresent => exact fieldRow_metered ((tagPresentActs_metered ..).trans (takeTagEvent_metered ..))
  | tagLost => exact fieldRow_metered ((tagLostActs_metered ..).trans (takeTagEvent_metered ..))
  | tagChanged => exact fieldRow_metered ((tagChangedActs_metered ..).trans (takeTagEvent_metered ..))
  | referDeadlineExpiry => exact fieldRow_metered (expire_metered fun u => endReferred_metered ..)
  | readyTimerExpiry => exact fieldRow_metered (expire_metered fun u => closeSession_metered ..)
  | resumeTimerExpiry => exact fieldRow_metered (expire_metered fun u => rfl)
  | settleTimerExpiry => exact fieldRow_metered (expire_metered fun u => settleExpires_metered ..)
  | rewindTimerExpiry => exact fieldRow_metered (expire_metered fun u => rewindExpires_metered ..)
  | proveReadyTimeout => exact fieldRow_metered (expire_metered fun u => endRun_metered ..)
  | proveSettleTimerExpiry => exact fieldRow_metered (expire_metered fun u => proveSettleExpires_metered ..)
  | armTimerExpiry => exact fieldRow_metered (expire_metered armExpires_metered)
  | inletIdleTimerExpiry => exact fieldRow_metered (expire_metered fun u => endLoading_metered ..)
  | loadSettleTimerExpiry => exact fieldRow_metered (expire_metered loadSettleExpires_metered)
  | forwardPulse => exact pulserRow_metered (driftOne_metered ..) (forwardPulse_metered ..)
  | reversePulse => exact pulserRow_metered (driftOne_metered ..) (reversePulse_metered ..)
  | pulserQuarterStep => exact pulserRow_metered (driftOne_metered ..) (quarterStep_metered ..)
  | illegalTransition =>
    rw [exec_illegalTransition, execIllegalTransition]
    exact pulserRow_metered (driftBoth_metered ..) (illegalTransition_metered ..)
  | probeSample => exact fieldRow_metered (sampleAll_metered ..)
  | lineTemperatureValidityChange => exact fieldRow_metered (takeLineTemp_metered ..)
  | _ => exact absurd event nofun

end

/-- Settles O59: the window expiry and the completion of a store write apart, every command keeps both. -/
theorem totalsAndParametersChangeOnlyAsStatedR148R153 : Obligations.TotalsAndParametersChangeOnlyAsStatedR148R153 := by
  intro c s t runs warm
  by_cases window : ∃ temperatures, c = .windowExpiry temperatures
  · obtain ⟨temperatures, rfl⟩ := window
    refine ⟨fun other => absurd rfl (other temperatures), fun _ _ => ?_⟩
    rw [exec_windowExpiry, execWindowExpiry] at runs
    obtain rfl | rfl := fieldRow_leaves runs
    · rfl
    · rw [parameters_of_metered (evaluatePermit_metered _), windowExpires_parameters]
  · by_cases write : c = .storeWriteComplete
    · subst write
      refine ⟨fun _ => ?_, fun other => absurd rfl other⟩
      rw [exec_storeWriteComplete, execStoreWriteComplete] at runs
      obtain rfl | rfl := fieldRow_leaves runs
      · rfl
      · rw [totals_of_metered (evaluatePermit_metered _), storeWritten_totals]
    · have kept : FiguresKept s t := by
        cases host : fromHost c with
        | true => exact exec_host_figuresKept host t runs
        | false => exact exec_event_figuresKept host warm (fun temperatures is => window ⟨temperatures, is⟩) write t runs
      obtain ⟨totals, parameters⟩ := kept
      exact ⟨fun _ => totals, fun _ => parameters⟩

end Sys2Proof.Machine
end

section
/-! PROOFS. The arithmetic of a window (R140 to R144): flow rate, linearisation factor, temperature, and the result with
its residues. -/

namespace Sys2Proof.Machine

/-! ### The linearisation factor (R141) -/

/-- Every point flows less than those after it. -/
abbrev FlowsRise (ps : List LinPoint) : Prop := ps.Pairwise (fun p q => p.flow < q.flow)

theorem flowsRise_of_ok {ps : List LinPoint} (ok : linPointsOk ps = true) : FlowsRise ps := by
  have rising : flowsRising ps = true := (Bool.and_eq_true_iff.1 ok).2
  clear ok
  refine List.isChain_iff_pairwise.1 ?_
  induction ps with
  | nil => exact .nil
  | cons p rest ih =>
    cases rest with
    | nil => exact .singleton p
    | cons q rest =>
      simp only [flowsRising, Bool.and_eq_true, decide_eq_true_eq] at rising
      obtain ⟨less, rest_rises⟩ := rising
      exact .cons_cons less (ih rest_rises)

section
variable {q : Nat} {lo : LinPoint}

theorem interpolate_at (hi : LinPoint) (flows : lo.flow = q) : interpolate q lo hi = lo.factor := by
  simp [interpolate, flows]

/-- The line from one factor to the next stays above 0. -/
theorem interpolate_eq {hi : LinPoint} (above : lo.flow < q) (below : q < hi.flow) : (interpolate q lo hi : Int) =
    lo.factor + Int.tdiv (((hi.factor : Int) - lo.factor) * ((q : Int) - lo.flow)) ((hi.flow : Int) - lo.flow) := by
  refine Int.toNat_of_nonneg ?_
  have part : (0 : Int) ≤ (q : Int) - lo.flow := by omega
  have within : (q : Int) - lo.flow ≤ (hi.flow : Int) - lo.flow := by omega
  have width : (0 : Int) < (hi.flow : Int) - lo.flow := by omega
  rcases le_total (lo.factor : Int) hi.factor with rises | falls
  · have := Int.tdiv_nonneg (mul_nonneg (sub_nonneg.2 rises) part) width.le
    omega
  · have drop : Int.tdiv (((lo.factor : Int) - hi.factor) * ((q : Int) - lo.flow)) ((hi.flow : Int) - lo.flow)
        ≤ (lo.factor : Int) - hi.factor := by
      rw [Int.tdiv_eq_ediv_of_nonneg (mul_nonneg (sub_nonneg.2 falls) part)]
      exact Int.ediv_le_of_le_mul width (mul_le_mul_of_nonneg_left within (sub_nonneg.2 falls))
    rw [← neg_sub (lo.factor : Int) hi.factor, neg_mul, Int.neg_tdiv]
    omega

theorem factorFrom_at {back : List LinPoint} (rise : FlowsRise (lo :: back)) (flows : lo.flow = q) :
    factorFrom q lo back = lo.factor := by
  cases back with
  | nil => rfl
  | cons hi back =>
    have below : q < hi.flow := flows ▸ List.rel_of_pairwise_cons rise List.mem_cons_self
    rw [factorFrom, if_pos below, interpolate_at hi flows]

/-- The search for the neighbours of `q` passes the points that flow no more. -/
theorem factorFrom_passes {front back : List LinPoint} (reached : lo.flow ≤ q) :
    ∀ first, FlowsRise (first :: (front ++ lo :: back)) →
      factorFrom q first (front ++ lo :: back) = factorFrom q lo back := by
  induction front with
  | nil => exact fun first _ => if_neg (Nat.not_lt.2 reached)
  | cons p front ih =>
    intro first rise
    have less : p.flow < lo.flow := List.rel_of_pairwise_cons rise.of_cons (by simp)
    exact (if_neg (by omega)).trans (ih p rise.of_cons)

theorem linearFactor_passes {r : MeterRecord} {front back : List LinPoint} (rise : FlowsRise (r.firstPoint :: r.morePoints))
    (points : r.firstPoint :: r.morePoints = front ++ lo :: back) (reached : lo.flow ≤ q) :
    linearFactor q r = factorFrom q lo back := by
  unfold linearFactor
  cases front with
  | nil =>
    obtain ⟨first, more⟩ := List.cons.inj points
    rw [first, more] at rise ⊢
    split
    next low => exact (factorFrom_at rise (Nat.le_antisymm reached low)).symm
    next => rfl
  | cons p front =>
    obtain ⟨-, more⟩ := List.cons.inj points
    change r.morePoints = front ++ lo :: back at more
    rw [more] at rise ⊢
    have less : r.firstPoint.flow < lo.flow := List.rel_of_pairwise_cons rise (by simp)
    rw [if_neg (by omega), factorFrom_passes reached _ rise]

end

/-! ### Flow rate and temperature (R140, R143) -/

theorem flowRate_captured {n pv window : Nat} {first last : Option Nat} {a b : Nat} (many : 2 ≤ n) (firstIs : first = some a)
    (lastIs : last = some b) (apart : (b + 2 ^ 32 - a) % 2 ^ 32 ≠ 0) :
    flowRate n pv window (interval first last) = min ((n - 1) * pv * 60 / ((b + 2 ^ 32 - a) % 2 ^ 32)) 65535 := by
  subst firstIs lastIs
  have dt : interval (some a) (some b) = (b + 2 ^ 32 - a) % 2 ^ 32 := rfl
  rw [flowRate, if_pos many, dt, if_neg apart]

theorem flowRate_few {n : Nat} (pv window dt : Nat) (few : n ≤ 1) :
    flowRate n pv window dt = min (n * pv * 60 / (window * 1000)) 65535 := if_neg (by omega)

theorem tempValid_eq (t : Int) : tempValid t = decide (-500 ≤ t ∧ t ≤ 1000) := (Bool.decide_and ..).symm

/-! ### The statement -/

/-- Settles O39: the window's figures one after the other, and the factor by where the flow lies among the points. -/
theorem windowArithmeticFollowsR140R144 : Obligations.WindowArithmeticFollowsR140R144 := by
  refine ⟨?_, fun q r ok => ?_⟩
  · rintro m o reading s _ _ q gross net temperature rfl rfl many captured few rfl rfl rfl
    have flow : flowRate (s.channels.get m).n (s.store.meters.get m).pulseVolume s.timebase.window
        (interval (s.channels.get m).first (s.channels.get m).last) = q := by
      rcases Nat.lt_or_ge 1 (s.channels.get m).n with two | one
      · obtain ⟨first, last, firstIs, lastIs, apart⟩ := captured two
        rw [many two first last firstIs lastIs apart, flowRate_captured two firstIs lastIs apart]
      · rw [few one, flowRate_few _ _ _ one]
    simp only [computeWindow, flow, tempValid_eq, clampTemp, decide_eq_true_eq]
  · have rise := flowsRise_of_ok ok
    refine ⟨fun low => if_pos low, fun p last high => ?_, fun p member flows => ?_,
      fun front lo hi back points above below => ?_⟩
    · obtain ⟨front, points⟩ := List.getLast?_eq_some_iff.1 last
      exact linearFactor_passes rise points high
    · obtain ⟨front, back, points⟩ := List.append_of_mem member
      obtain ⟨-, tail, -⟩ := List.pairwise_append.1 (points ▸ rise)
      rw [linearFactor_passes rise points flows.le, factorFrom_at tail flows]
    · rw [linearFactor_passes rise points above.le, factorFrom, if_pos below, interpolate_eq above below]

end Sys2Proof.Machine
end

section
/-! PROOFS. METER READ and METROLOGY READ, the two store writes and their completion (R151, R153 to R156, R158). -/

namespace Sys2Proof.Machine

/-! ### A command that starts a store write (R155) -/

/-- A ready controller's host command whose checks stand in order and whose effect leaves the answer to the write. -/
theorem hostRow_checkedWrite {c : Instr} {body : State → Reply} {checks : List (Bool × Status)} {s t : State}
    (ready : Ready s) (replies : body s = checkedReply checks s (t, none)) :
    hostRow c body s = match firstFailing checks with
      | some e => completes c e [] s
      | none => happens t := by
  unfold checkedReply at replies
  cases first : firstFailing checks with
  | none =>
    rw [first] at replies
    exact hostRow_waits ready replies
  | some e =>
    rw [first] at replies
    exact hostRow_answers ready replies

/-! ### The checks of the two writes (R155, R156) -/

theorem orderActive_eq (s : State) : orderActive s = s.loads.orders.any (fun p => activeState p.2.state) :=
  tableFind_isSome ..

theorem loadingOrder_isSome (s : State) : (loadingOrder s).isSome = s.loads.orders.any (fun p => p.2.state == .loading) :=
  tableFind_isSome ..

/-- Check 3 of METROLOGY WRITE, by the meter. -/
theorem meterBusy_eq (m : MeterId) (s : State) : (!meterBusy m s) = match m with
    | .one => !metering s.hoses.h1
    | .two => !metering s.hoses.h2
    | .three => !metering s.hoses.h3
    | .four => s.loads.orders.all (fun q => !activeState q.2.state) := by
  cases m with
  | four =>
    change (!orderActive s) = _
    rw [orderActive_eq, List.not_any_eq_all_not]
  | one | two | three => rfl

/-- Check 3 of GRADE COEFFICIENT WRITE. -/
theorem anyMetering_eq (s : State) : (!anyMetering s) =
    (!metering s.hoses.h1 && !metering s.hoses.h2 && !metering s.hoses.h3
      && s.loads.orders.all (fun q => q.2.state != .loading)) := by
  simp [anyMetering, loadingOrder_isSome, ByHose.toList, List.not_any_eq_all_not, bne, Bool.and_assoc]

theorem doMetrologyWrite_eq (m : MeterId) (pv : Nat) (p : LinPoint) (rest : List LinPoint) (s : State) :
    doMetrologyWrite m.number pv (p :: rest) s = checkedReply
      [(decide (1000 ≤ pv ∧ pv ≤ 100000) && linPointsOk (p :: rest), .malformed), (s.field.levels.sealClosed, .sealed),
        (!meterBusy m s, .busy)] s
      (beginWrite (.metrologyWrite m.number pv (p :: rest)) (.meter m pv p rest) s) := by
  simp only [doMetrologyWrite, fourOf_number, inRange, Bool.decide_and]
  exact ite_eq_checkedReply (by rw [Bool.not_eq_true']) fun _ => ite_eq_checkedReply (by rw [Bool.not_eq_true']) fun _ =>
    ite_eq_checkedReply (by simp) fun _ => rfl

theorem doGradeCoefficientWrite_eq (g : Grade) (alpha : Nat) (fallback : Int) (s : State) :
    doGradeCoefficientWrite g alpha fallback s = checkedReply
      [(decide (alpha ≤ 2000 ∧ -400 ≤ fallback ∧ fallback ≤ 850), .malformed), (s.field.levels.sealClosed, .sealed),
        (!anyMetering s, .busy)] s
      (beginWrite (.gradeCoefficientWrite g alpha fallback) (.grade g { alpha := alpha, fallback := fallback }) s) := by
  simp only [doGradeCoefficientWrite, Bool.decide_and, Bool.and_assoc]
  exact ite_eq_checkedReply (by rw [Bool.not_eq_true']) fun _ => ite_eq_checkedReply (by rw [Bool.not_eq_true']) fun _ =>
    ite_eq_checkedReply (by simp) fun _ => rfl

/-! ### The completion of a write (R153, R155) -/

theorem exec_storeWriteComplete_eq {s : State} {w : StoreWrite} (running : s.supply.power = .running)
    (writing : s.store.write = some w) :
    exec .storeWriteComplete s =
      completes w.command (applyWrite w s).2.status (applyWrite w s).2.payload (applyWrite w s).1 := by
  rw [exec_storeWriteComplete, execStoreWriteComplete, fieldRow_running running, storeWritten, writing]
  rfl

/-! ### The reads (R151, R158) -/

theorem doMeterRead_eq (m : MeterId) (s : State) : doMeterRead m.number s =
    okWith (channelBytes (s.channels.get m) ++ u64 (s.store.meters.get m).pulseVolume
      ++ firstOf (s.store.meters.get m).calibrated ++ ownerBytes m s) s := by
  rw [doMeterRead, fourOf_number]

theorem doMetrologyRead_eq (m : MeterId) (s : State) : doMetrologyRead m.number s =
    okWith (u64 (s.store.meters.get m).pulseVolume
      ++ counted linPointBytes ((s.store.meters.get m).firstPoint :: (s.store.meters.get m).morePoints)
      ++ firstOf (s.store.meters.get m).calibrated ++ u16 (s.store.meters.get m).changes
      ++ u16 s.store.grades.g1.alpha ++ leSigned 2 s.store.grades.g1.fallback
      ++ u16 s.store.grades.g2.alpha ++ leSigned 2 s.store.grades.g2.fallback
      ++ u16 s.store.grades.g3.alpha ++ leSigned 2 s.store.grades.g3.fallback
      ++ (if s.store.restored then [1] else [0]) ++ (if s.field.levels.sealClosed then [1] else [0])) s := by
  have restored : firstOf (!s.store.restored) = if s.store.restored then [1] else [0] := by
    cases s.store.restored <;> rfl
  simp only [doMetrologyRead, fourOf_number, restored, ByGrade.toList, List.flatMap_cons, List.flatMap_nil,
    gradeRecordBytes, flagByte, List.append_nil, List.append_assoc]

/-- Settles O42, command by command. -/
theorem metrologyStoreFollowsR151R158 : Obligations.MetrologyStoreFollowsR151R158 := by
  refine ⟨fun s running => ⟨fun m free => ⟨?_, ?_, ?_⟩, ?_, ?_, ?_⟩, fun n s ready unnamed => ⟨?_, ?_, ?_⟩⟩
  · refine (hostRow_answers ⟨running, free⟩ (doMeterRead_eq m s)).trans ?_
    cases m <;> rfl
  · exact hostRow_answers ⟨running, free⟩ (doMetrologyRead_eq m s)
  · rintro pv p rest _ rfl
    refine (hostRow_checkedWrite ⟨running, free⟩ (doMetrologyWrite_eq m pv p rest s)).trans ?_
    rw [meterBusy_eq]
    rfl
  · rintro g alpha fallback _ free rfl
    refine (hostRow_checkedWrite ⟨running, free⟩ (doGradeCoefficientWrite_eq g alpha fallback s)).trans ?_
    rw [anyMetering_eq]
    rfl
  · rintro c m pv p rest _ writing rfl
    rw [exec_storeWriteComplete_eq running writing]
    rfl
  · intro c g r writing
    rw [exec_storeWriteComplete_eq running writing]
    rfl
  · exact hostRow_answers ready (by rw [doMeterRead, unnamed]; rfl)
  · exact hostRow_answers ready (by rw [doMetrologyRead, unnamed]; rfl)
  · exact fun pv points => hostRow_answers ready (by simp only [doMetrologyWrite, unnamed]; rfl)

end Sys2Proof.Machine
end

section
/-! PROOFS. Proving runs (R159 to R162, R164): the checks of PROVE START as one list, the compartment it finds, the end of
a run field by field, and the timers of a run. -/

namespace Sys2Proof.Machine

/-! ### Checks of PROVE START (R159) -/

/-- A check of two parts is two checks with one status. -/
theorem checkedReply_and (a b : Bool) (e : Status) (checks : List (Bool × Status)) (s : State) (r : Reply) :
    checkedReply ((a && b, e) :: checks) s r = checkedReply ((a, e) :: (b, e) :: checks) s r := by
  cases a <;> rfl

/-- The compartment is IN_SERVICE and its grade is of the hose's class. -/
def suitsRun (id : HoseId) (k : Compartment) : Bool := k.state == .inService && k.grade.any (gradeInClass id)

/-- Check 6: G3 at the fluid hose, G1 and G2 at the others. -/
theorem suitsRun_eq (id : HoseId) (k : Compartment) : suitsRun id k = (k.state == .inService
    && (match id, k.grade with
      | _, none => false
      | .h3, some g => g == .g3
      | _, some g => g != .g3)) := by
  unfold suitsRun
  cases k.grade with
  | none => rfl
  | some g => cases id <;> cases g <;> rfl

theorem provingGrade_eq (id : HoseId) (k : Compartment) :
    provingGrade id k = if suitsRun id k then some (k.grade.getD .g1) else none := by
  unfold provingGrade suitsRun
  cases k.grade with
  | none => simp
  | some g => simp [and_comm]

/-- The compartment of a run is the first of the preference list that suits it. -/
theorem provingSource_eq (id : HoseId) (s : State) : provingSource id s =
    ((s.hoses.get id).setup.preference.find? (fun d => suitsRun id (s.compartments.get d))).map
      (fun d => (d, (s.compartments.get d).grade.getD .g1)) := by
  unfold provingSource
  induction (s.hoses.get id).setup.preference with
  | nil => rfl
  | cons d rest ih =>
    rw [List.findSome?_cons, List.find?_cons, provingGrade_eq, ih]
    cases suitsRun id (s.compartments.get d) <;> rfl

/-- The checks of PROVE START, `source` being the compartment found. -/
def proveStartChecks (id : HoseId) (flow nominal : Nat) (source : Option CompId) (s : State) : List (Bool × Status) :=
  [(decide (5 ≤ flow ∧ flow ≤ 1000 ∧ 20 ≤ nominal ∧ nominal ≤ 2000), .malformed), (s.field.levels.sealClosed, .sealed),
    ((s.hoses.get id).state == .idle && !(s.hoses.get id).outputs.reel, .state),
    (!s.field.levels.estop && !stopValid (.hose id) s && !stopValid (.meter id.meter) s, .state),
    ((s.store.meters.get id.meter).calibrated, .state), (source.isSome, .state),
    (source.all (fun d => (s.compartments.get d).gauge.isNone), .busy)]

theorem provable_eq (id : HoseId) (s : State) : provable id s =
    (((s.hoses.get id).state == .idle && !(s.hoses.get id).outputs.reel)
      && (!s.field.levels.estop && !stopValid (.hose id) s && !stopValid (.meter id.meter) s)
      && (s.store.meters.get id.meter).calibrated) := by
  simp only [provable, hoseStopValid, calibrated, Bool.not_or, Bool.and_assoc]

/-- Checks 3 to 5 are one test of the model. -/
theorem checkedReply_provable (id : HoseId) (checks : List (Bool × Status)) (s : State) (r : Reply) : checkedReply
    (((s.hoses.get id).state == .idle && !(s.hoses.get id).outputs.reel, .state)
      :: (!s.field.levels.estop && !stopValid (.hose id) s && !stopValid (.meter id.meter) s, .state)
      :: ((s.store.meters.get id.meter).calibrated, .state) :: checks) s r =
    checkedReply ((provable id s, .state) :: checks) s r := by
  rw [← checkedReply_and, ← checkedReply_and, provable_eq]

theorem doProveStart_eq (id : HoseId) (flow nominal : Nat) (s : State) (source : Option CompId)
    (sourceIs : source = (s.hoses.get id).setup.preference.find? (fun d => suitsRun id (s.compartments.get d))) :
    doProveStart id.number flow nominal s = checkedReply (proveStartChecks id flow nominal source s) s
      (source.elim (answer .state s) (fun d => answer .accepted (enterProveReady id
        (newRun d ((s.compartments.get d).grade.getD .g1) (min flow (s.hoses.get id).setup.maxFlow) nominal) s))) := by
  simp only [doProveStart, hoseOf_number, provingSource_eq, ← sourceIs]
  refine ite_eq_checkedReply (by simp only [inRange, Bool.decide_and, Bool.and_assoc, Bool.not_eq_true']) fun _ => ?_
  refine ite_eq_checkedReply (by rw [Bool.not_eq_true']) fun _ => ?_
  rw [checkedReply_provable]
  refine ite_eq_checkedReply (by rw [Bool.not_eq_true']) fun _ => ?_
  cases source with
  | none => rfl
  | some d => exact ite_eq_checkedReply (by simp) fun _ => rfl

/-- The channel of a hose keeps its unattributed volume. -/
theorem openChannel_ofHose (id : HoseId) (s : State) : openChannel id.meter s =
    setChannel id.meter
      { s.channels.get id.meter with grossResidue := 0, netResidue := 0, debt := 0, reverseMark := false, illegal := 0 }
      s := by
  cases id <;> rfl

/-- The run takes hose and channel. -/
theorem enterProveReady_eq (id : HoseId) (r : Run) (s : State) : enterProveReady id r s =
    setHose id
      { s.hoses.get id with
        state := .proveReady
        outputs := { (s.hoses.get id).outputs with
          pump := true, manifold := some r.compartment, mainValve := false, staged := 0 }
        lastSource := some r.compartment
        run := some r
        readyTimer := some (s.timebase.now + (s.hoses.get id).setup.readyTimeout * 1000)
        stopFaultFound := false
        windowAfterClosing := false }
      (setChannel id.meter
        { s.channels.get id.meter with
          grossResidue := 0, netResidue := 0, debt := 0, reverseMark := false, illegal := 0 } s) := by
  simp only [enterProveReady, openChannel_ofHose]
  rfl

/-- PROVE START by its first failing check. -/
theorem exec_proveStart_eq {id : HoseId} {flow nominal : Nat} {s : State} {source : Option CompId} (ready : Ready s) :
    source = (s.hoses.get id).setup.preference.find? (fun d => suitsRun id (s.compartments.get d)) →
    exec (.proveStart id.number flow nominal) s =
      match firstFailing (proveStartChecks id flow nominal source s), source with
      | some e, _ => completes (.proveStart id.number flow nominal) e [] s
      | none, none => completes (.proveStart id.number flow nominal) .state [] s
      | none, some d => completes (.proveStart id.number flow nominal) .accepted [] (enterProveReady id
          (newRun d ((s.compartments.get d).grade.getD .g1) (min flow (s.hoses.get id).setup.maxFlow) nominal) s) := by
  intro sourceIs
  have replies := doProveStart_eq id flow nominal s source sourceIs
  rw [exec_proveStart, execProveStart]
  cases source with
  | none =>
    rw [hostRow_checkedReply ready replies, checked]
    cases firstFailing (proveStartChecks id flow nominal none s) <;> rfl
  | some d =>
    rw [hostRow_checkedReply ready replies, checked]
    cases firstFailing (proveStartChecks id flow nominal (some d) s) <;> rfl

/-! ### The end of a run (R160, R162) -/

theorem flowingTimeNow_eq (now : Nat) (r : Run) :
    flowingTimeNow now r = r.flowOpened.elim r.flowingTime (fun t => min (now - t) (2 ^ 32 - 1)) :=
  congrArg Run.flowingTime (stopFlowing_eq now r)

theorem provingState_eq (st : HoseState) :
    provingState st = [HoseState.proveReady, .proveFlowing, .proveHeld].contains st := by cases st <;> rfl

section
variable {id : HoseId} {h : Hose} {s : State} (at_id : s.hoses.get id = h)
include at_id

theorem endRun_eq (outcome : RunOutcome) (next : HoseState) : endRun id outcome next s = raise (.doneHose id)
    { s with
      hoses := s.hoses.set id
        { stopSessionTimers h with
          run := h.run.map (fun r => { r with
            flowingTime := r.flowOpened.elim r.flowingTime (fun t => min (s.timebase.now - t) (2 ^ 32 - 1))
            flowOpened := none, outcome := outcome })
          outputs := restOutputs h.outputs
          state := next
          stopFaultFound := false
          windowAfterClosing := false } } := by
  subst at_id
  simp only [endRun, stopFlowing_eq]
  rfl

/-- R161: the settle timer by whether a pulse is still counted. -/
theorem proveSettleExpires_eq (free : s.store.write = none) (held : h.state = .proveHeld) : proveSettleExpires id s =
    if (s.channels.get id.meter).n = 0 ∧ lastPulses (s.channels.get id.meter) = 0 then
      setHose id { h with run := h.run.map (fun r => { r with settled := true }), settleTimer := none } s
    else endRun id .fault .locked
      (report (.hose id) .valve id.number (lastPulses (s.channels.get id.meter)) s) := by
  split
  next still =>
    subst at_id
    simp [proveSettleExpires, stillMoving, settleRun, still]
  next moves =>
    have moving : stillMoving (s.channels.get id.meter) = true := by
      simp only [stillMoving, Bool.or_eq_true, decide_eq_true_eq]
      omega
    rw [proveSettleExpires, if_pos moving, stopFault_proving (h := h) (by simpa [reportValve] using at_id)]
    · rfl
    · exact .inr (.inr ⟨held, not_judged (by simp [reportValve, free])⟩)

end

/-- Settles O43, command by command, then the two timers. -/
theorem provingRunCommandsFollowR159R164 : Obligations.ProvingRunCommandsFollowR159R164 := by
  intro id h s ended ready at_id endedIs
  have ends : ∀ outcome next u, u.hoses.get id = h → endRun id outcome next u = ended outcome next u :=
    fun outcome next u at_u => (endRun_eq at_u outcome next).trans (endedIs outcome next u).symm
  subst at_id
  refine ⟨?_, ?_, ?_, fun t reached reachedIs => ⟨fun readies runs => ?_, fun held runs last lastIs => ?_⟩⟩
  · rintro flow nominal _ source rfl sourceIs
    rw [exec_proveStart_eq ready
      (sourceIs.trans (congrArg (fun p => List.find? p _) (funext fun d => (suitsRun_eq id _).symm)))]
    simp only [enterProveReady_eq]
    rfl
  · rw [← provingState_eq, exec_proveAbort, execProveAbort]
    split
    next proves =>
      rw [← ends .aborted .idle s rfl]
      exact hostRow_answers ready (by rw [doProveAbort, hoseOf_number]; exact if_pos proves)
    next rests => exact hostRow_answers ready (by rw [doProveAbort, hoseOf_number]; exact if_neg rests)
  · refine hostRow_answers ready ?_
    simp only [doProveRead, hoseOf_number, flowingTimeNow_eq, provingState_eq]
    rfl
  · subst reachedIs
    rw [← ends .timeout .idle (reachInstant t s) rfl]
    exact (exec_proveReadyTimeout id s).trans (fieldRow_expires ready.1 readies runs)
  · have expires : exec (.proveSettleTimerExpiry id) s = happens (proveSettleExpires id (reachInstant t s)) :=
      (exec_proveSettleTimerExpiry id s).trans (fieldRow_expires ready.1 held runs)
    rw [← lastPulses_eq] at lastIs
    subst lastIs reachedIs
    rw [expires, proveSettleExpires_eq (s := reachInstant t s) rfl ready.2 held, apply_ite happens,
      ends .fault .locked _ (by simp)]
    rfl

end Sys2Proof.Machine
end

section
/-! PROOFS. PROVE RESULT (R163): average flow, the nearest point, the tolerance and the new factor, the end of a judged
run, and the write of its factor. -/

namespace Sys2Proof.Machine

/-! ### The nearest point -/

theorem distance_cast (a b : Nat) : (distance a b : Int) = |(a : Int) - b| := by
  unfold distance
  rcases le_total a b with less | more
  · rw [abs_of_nonpos (by omega)]
    omega
  · rw [abs_of_nonneg (by omega)]
    omega

/-- Point `p`, at place `i` from 0, is nearest to `flow`, and no point before it is as near. -/
def NearestAt (flow : Nat) (points : List LinPoint) (i : Nat) (p : LinPoint) : Prop :=
  points[i]? = some p ∧ ∀ (j : Nat) q, points[j]? = some q →
    distance flow p.flow ≤ distance flow q.flow ∧ (distance flow p.flow = distance flow q.flow → i ≤ j)

/-- The statement's reading of distances. -/
theorem nearestAt_iff {flow : Nat} {points : List LinPoint} {i : Nat} {p : LinPoint} : NearestAt flow points i p ↔
    points[i]? = some p ∧ ∀ (j : Nat) q, points[j]? = some q →
      |(flow : Int) - p.flow| ≤ |(flow : Int) - q.flow|
        ∧ (|(flow : Int) - p.flow| = |(flow : Int) - q.flow| → i ≤ j) := by
  simp only [NearestAt, ← distance_cast, Nat.cast_le, Nat.cast_inj]

theorem NearestAt.unique {flow : Nat} {points : List LinPoint} {i j : Nat} {p q : LinPoint}
    (at_i : NearestAt flow points i p) (at_j : NearestAt flow points j q) : i = j ∧ p = q := by
  obtain ⟨i_is, i_nearest⟩ := at_i
  obtain ⟨j_is, j_nearest⟩ := at_j
  obtain ⟨p_le, i_first⟩ := i_nearest j q j_is
  obtain ⟨q_le, j_first⟩ := j_nearest i p i_is
  obtain rfl : i = j := Nat.le_antisymm (i_first (Nat.le_antisymm p_le q_le)) (j_first (Nat.le_antisymm q_le p_le))
  exact ⟨rfl, Option.some.inj (i_is.symm.trans j_is)⟩

/-- A point after the others takes the place only where it is nearer. -/
theorem NearestAt.append {flow : Nat} {front : List LinPoint} {i : Nat} {p : LinPoint} (best : NearestAt flow front i p)
    (last : LinPoint) : if distance flow last.flow < distance flow p.flow
      then NearestAt flow (front ++ [last]) front.length last else NearestAt flow (front ++ [last]) i p := by
  obtain ⟨is, nearest⟩ := best
  have within : i < front.length := (List.getElem?_eq_some_iff.1 is).1
  have split_last : ∀ (j : Nat) q, (front ++ [last])[j]? = some q →
      front[j]? = some q ∨ (j = front.length ∧ q = last) := by
    intro j q found
    rcases Nat.lt_or_ge j front.length with before | after
    · exact .inl (by rwa [List.getElem?_append_left before] at found)
    · rw [List.getElem?_append_right after, List.getElem?_singleton] at found
      split at found
      next place => exact .inr ⟨by omega, (Option.some.inj found).symm⟩
      next => cases found
  split
  next nearer =>
    refine ⟨by simp, fun j q found => ?_⟩
    rcases split_last j q found with before | ⟨rfl, rfl⟩
    · obtain ⟨least, -⟩ := nearest j q before
      omega
    · simp
  next kept =>
    refine ⟨by rwa [List.getElem?_append_left within], fun j q found => ?_⟩
    rcases split_last j q found with before | ⟨rfl, rfl⟩
    · exact nearest j q before
    · exact ⟨Nat.not_lt.1 kept, fun _ => within.le⟩

theorem nearestFrom_nearest {flow : Nat} {rest : List LinPoint} : ∀ {front : List LinPoint} {i : Nat} {p : LinPoint},
    NearestAt flow front i p → ∃ j q, nearestFrom flow front.length (i + 1, p) rest = (j + 1, q)
      ∧ NearestAt flow (front ++ rest) j q := by
  induction rest with
  | nil => exact fun best => ⟨_, _, rfl, by rwa [List.append_nil]⟩
  | cons last rest ih =>
    intro front i p best
    have longer := best.append last
    rw [nearestFrom, List.append_cons]
    split at longer
    next nearer =>
      rw [if_pos nearer]
      simpa using ih longer
    next kept =>
      rw [if_neg kept]
      simpa using ih longer

/-- The search finds the nearest point, of two equally near the lower. -/
theorem nearestPoint_eq {flow k : Nat} {p : LinPoint} {r : MeterRecord} (fromOne : 1 ≤ k)
    (nearest : NearestAt flow (r.firstPoint :: r.morePoints) (k - 1) p) : nearestPoint flow r = (k, p) := by
  have first : NearestAt flow [r.firstPoint] 0 r.firstPoint := by
    refine ⟨rfl, fun j q found => ⟨?_, fun _ => j.zero_le⟩⟩
    obtain rfl := List.mem_singleton.1 (List.mem_of_getElem? found)
    exact le_rfl
  obtain ⟨j, q, found, least⟩ := nearestFrom_nearest (rest := r.morePoints) first
  obtain ⟨rfl, rfl⟩ := least.unique nearest
  rw [nearestPoint, ← Nat.sub_add_cancel fromOne]
  exact found

/-! ### Tolerance and figures -/

theorem outsideTolerance_iff (gross observed : Nat) : outsideTolerance gross observed = true ↔
    gross = 0 ∨ (gross * 2 : Int) < |(observed * 1000 : Int) - gross| * 100 := by
  have cast := distance_cast (observed * 1000) gross
  push_cast at cast
  rw [← cast, outsideTolerance, Bool.or_eq_true, beq_iff_eq, decide_eq_true_eq]
  norm_cast

theorem judgeRun_eq {observed k : Nat} {r : Run} {m : MeterRecord} {p : LinPoint} (fromOne : 1 ≤ k)
    (nearest : NearestAt (averageFlow r.indicated r.flowingTime) (m.firstPoint :: m.morePoints) (k - 1) p) :
    judgeRun observed r m =
      { observed := observed, averageFlow := averageFlow r.indicated r.flowingTime, point := k, oldFactor := p.factor,
        newFactor := if r.indicated = 0 ∨ (r.indicated * 2 : Int) < |(observed * 1000 : Int) - r.indicated| * 100
          then p.factor
          else max 58982 (min ((2 * (p.factor * observed * 1000) + r.indicated) / (2 * r.indicated)) 72090) } := by
  simp only [judgeRun, nearestPoint_eq fromOne nearest, outsideTolerance_iff]
  rfl

/-! ### The end of a judged run -/

/-- A judged run ends with the figures of its result. -/
theorem endRun_judged (id : HoseId) (h : Hose) (r : Run) (s : State) (outcome : RunOutcome) (next : HoseState)
    (result : RunResult) :
    endRun id outcome next (setHose id { h with run := some { r with result := some result } } s) =
      raise (.doneHose id)
        { s with
          hoses := s.hoses.set id
            { stopSessionTimers h with
              run := some { r with
                flowingTime := r.flowOpened.elim r.flowingTime (fun t => min (s.timebase.now - t) (2 ^ 32 - 1))
                flowOpened := none, result := some result, outcome := outcome }
              outputs := restOutputs h.outputs
              state := next
              stopFaultFound := false
              windowAfterClosing := false } } := by
  rw [endRun_eq (h := { h with run := some { r with result := some result } }) (by simp)]
  simp only [setHose, ByHose_set_set]
  rfl

theorem runUpdated_eq {id : HoseId} {h : Hose} {r : Run} {s : State} (at_id : s.hoses.get id = h) (run : h.run = some r)
    (result : RunResult) : runUpdated id result s = endRun id .updated (if h.stopFaultFound then .locked else .idle)
      (setHose id { h with run := some { r with result := some result } } s) := by
  subst at_id
  simp only [runUpdated, run, Option.map_some]

theorem applyWrite_factor (c : Instr) (id : HoseId) (r : RunResult) (s : State) :
    applyWrite { command := c, change := .factor id r } s =
      (runUpdated id r
        { s with
          store := { s.store with
            write := none
            meters := s.store.meters.set id.meter
              (countChange (setPointFactor r.point r.newFactor (s.store.meters.get id.meter))) } },
        ⟨.ok, u8 1 ++ u8 r.point ++ u32 r.oldFactor ++ u32 r.newFactor⟩) := rfl

/-- The point with number `k` takes its factor. -/
theorem setPointFactor_eq {k factor : Nat} {m : MeterRecord} {first : LinPoint} {more : List LinPoint} (fromOne : 1 ≤ k)
    (points : first :: more = (m.firstPoint :: m.morePoints).modify (k - 1) (fun q => { q with factor := factor })) :
    setPointFactor k factor m = { m with firstPoint := first, morePoints := more } := by
  obtain ⟨i, rfl⟩ := Nat.exists_eq_add_of_le' fromOne
  rw [Nat.add_sub_cancel] at points
  cases i <;>
    obtain ⟨rfl, rfl⟩ := List.cons.inj points <;>
    rfl

/-! ### The command -/

section
variable {id : HoseId} {h : Hose} {r : Run} {s : State} (at_id : s.hoses.get id = h) (run : h.run = some r)
include at_id run

/-- A run in PROVE_HELD, by whether it has settled and lies within tolerance. -/
theorem doProveResult_held {observed : Nat} (legal : observed ≤ 4000000) (held : h.state = .proveHeld) :
    doProveResult id.number observed s =
      if r.settled = false then answer .busy s
      else if outsideTolerance r.indicated observed then
        okWith (u8 2) (endRun id .rejected .idle
          (setHose id
            { h with run := some { r with result := some (judgeRun observed r (s.store.meters.get id.meter)) } } s))
      else if s.field.levels.sealClosed then
        beginWrite (.proveResult id.number observed) (.factor id (judgeRun observed r (s.store.meters.get id.meter))) s
      else answer .sealed s := by
  subst at_id
  simp only [doProveResult, hoseOf_number, run]
  rw [if_neg (Nat.not_lt.2 legal), if_neg (not_not.2 held)]
  cases r.settled <;> cases s.field.levels.sealClosed <;> rfl

theorem doProveResult_rests {observed : Nat} (legal : observed ≤ 4000000) (rests : h.state ≠ .proveHeld) :
    doProveResult id.number observed s = answer .state s := by
  subst at_id
  simp only [doProveResult, hoseOf_number]
  rw [if_neg (Nat.not_lt.2 legal), if_pos rests]

end

/-- Settles O44: the judgement of a run, then the completion of the write that an accepted one starts. -/
theorem proveResultFollowsR163 : Obligations.ProveResultFollowsR163 := by
  rintro id h r observed s _ _ _ k p result ended running at_id run rfl rfl rfl fromOne is nearest resultIs endedIs
  have ends : ∀ outcome next u,
      endRun id outcome next (setHose id { h with run := some { r with result := some result } } u)
        = ended outcome next u :=
    fun outcome next u => (endRun_judged id h r u outcome next result).trans (endedIs outcome next u).symm
  have place : NearestAt (averageFlow r.indicated r.flowingTime)
      ((s.store.meters.get id.meter).firstPoint :: (s.store.meters.get id.meter).morePoints) (k - 1) p :=
    nearestAt_iff.2 ⟨is, nearest⟩
  have judgedIs : judgeRun observed r (s.store.meters.get id.meter) = result :=
    (judgeRun_eq fromOne place).trans resultIs.symm
  refine ⟨fun free legal => ⟨fun rests => ?_, fun held moves => ?_,
    fun held settled => ⟨fun out => ?_, fun volume within => ?_⟩⟩, fun writing first more points => ?_⟩
  · exact hostRow_answers ⟨running, free⟩ (doProveResult_rests at_id run legal rests)
  · refine hostRow_answers ⟨running, free⟩ ((doProveResult_held at_id run legal held).trans ?_)
    rw [if_pos moves]
    rfl
  · refine hostRow_answers ⟨running, free⟩ ((doProveResult_held at_id run legal held).trans ?_)
    rw [if_neg (by simp [settled]), if_pos ((outsideTolerance_iff ..).2 out), judgedIs, ends]
    rfl
  · refine (hostRow_ready ⟨running, free⟩).trans ?_
    rw [doProveResult_held at_id run legal held, if_neg (by simp [settled]),
      if_neg (fun out => ((outsideTolerance_iff ..).1 out).elim volume (not_lt.2 within)), judgedIs]
    cases s.field.levels.sealClosed <;> rfl
  · have pointIs : result.point = k := by rw [resultIs]
    have oldIs : result.oldFactor = p.factor := by rw [resultIs]
    rw [exec_storeWriteComplete_eq running writing, applyWrite_factor, runUpdated_eq ?_ run, ends, pointIs, oldIs,
      setPointFactor_eq fromOne points]
    · rfl
    · exact at_id

end Sys2Proof.Machine
end

section
/-! PROOFS. Load orders (R167 to R171, R173, R174, R176): the active order and the LOADING one in the table, what opening,
closing and cancelling leave, and the commands apart from arming. -/

namespace Sys2Proof.Machine

/-! ### Searches of the order table (R166) -/

/-- What a search finds is also what a narrower search finds, where it passes the narrower test. -/
theorem tableFind_narrow {α : Type} {p q : Nat → α → Bool} {t : Table α} {i : Nat} {a : α}
    (narrow : ∀ j b, q j b = true → p j b = true) (found : tableFind p t = some (i, a)) (passes : q i a = true) :
    tableFind q t = some (i, a) := by
  induction t with
  | nil => cases found
  | cons x rest ih =>
    obtain ⟨j, b⟩ := x
    simp only [tableFind] at found ⊢
    split_ifs at found with first
    · obtain ⟨rfl, rfl⟩ := Prod.mk.inj (Option.some.inj found)
      rw [if_pos passes]
    · rw [if_neg fun also => first (narrow j b also), ih found]

/-- After a write of the slot a search had found, one that passes the test, the search finds what was written. -/
theorem tableFind_rewritten {α : Type} {p : Nat → α → Bool} {t : Table α} {i : Nat} {a b : α}
    (found : tableFind p t = some (i, a)) (passes : p i b = true) : tableFind p (tableSet t i b) = some (i, b) := by
  induction t with
  | nil => cases found
  | cons x rest ih =>
    obtain ⟨j, c⟩ := x
    simp only [tableFind] at found
    simp only [tableSet]
    by_cases before : i < j
    · simp [before, tableFind, passes]
    by_cases same : i = j
    · simp [same, tableFind, same ▸ passes]
    by_cases first : p j c = true
    · rw [if_pos first] at found
      exact absurd (Prod.mk.inj (Option.some.inj found)).1.symm same
    · rw [if_neg first] at found
      simp [before, same, tableFind, first, ih found]

theorem activeState_eq (st : LoadState) : activeState st = [LoadState.armed, .loading, .settling].contains st := by
  cases st <;> rfl

/-- No order is active, as the checks of the commands write it. -/
theorem noActiveOrder_eq (s : State) : (!(activeOrder s).isSome) =
    s.loads.orders.all (fun p => !([LoadState.armed, .loading, .settling].contains p.2.state)) := by
  simp only [← activeState_eq, ← List.not_any_eq_all_not, activeOrder, tableFind_isSome]

/-- An active order that is LOADING is the LOADING order. -/
theorem loadingOrder_of_active {slot : Nat} {o : LoadOrder} {s : State} (active : activeOrder s = some (slot, o))
    (loading : o.state = .loading) : loadingOrder s = some (slot, o) := by
  refine tableFind_narrow (fun _ p isLoading => ?_) active (by simp [loading])
  rw [beq_iff_eq.1 isLoading]
  rfl

theorem loadingOrder_none {s : State} (none : ∀ p ∈ s.loads.orders, p.2.state ≠ .loading) : loadingOrder s = .none :=
  tableFind_none.2 fun p listed => beq_eq_false_iff_ne.2 (none p listed)

/-- No active order is LOADING. -/
theorem loadingOrder_inactive {s : State} (none : activeOrder s = .none) : loadingOrder s = .none :=
  loadingOrder_none fun p listed loading => by simpa [activeState, loading] using tableFind_none.1 none p listed

theorem loadingOrder_state {slot : Nat} {o : LoadOrder} {s : State} (loading : loadingOrder s = some (slot, o)) :
    o.state = .loading := beq_iff_eq.1 (tableFind_some loading).2

/-! ### The end of an order before its time (R171, R176) -/

/-- The compartment is IN_SERVICE again, its gauge a host gauge. -/
theorem cancelOrder_eq {o : LoadOrder} {k : Compartment} {s : State} (slot : Nat) (cause : EndCause)
    (at_comp : s.compartments.get o.compartment = k) : cancelOrder slot o cause s =
      { s with
        loads := { s.loads with
          orders := tableSet s.loads.orders slot
            { o with
              state := .cancelled, endCause := some cause, completed := some s.timebase.count
              flowEnd := if o.state = .loading then some s.timebase.count else o.flowEnd }
          valveOpen := false, armTimer := none, idleTimer := none }
        compartments := s.compartments.set o.compartment
          { k with state := .inService, gauge := k.gauge.map (fun g => { g with origin := .host }) } } := by
  subst at_comp
  simp only [cancelOrder, handGaugeToHost, releaseCompartment, setComp_compartments, setLoads_compartments, ByFour_get_set]
  cases (s.compartments.get o.compartment).gauge <;> simp [setComp, setLoads, siteTime]

/-! ### The commands (R167, R168, R176) -/

theorem docketOk_eq (docket : List Byte) : docketOk docket =
    (decide (docket.length = 16) && docket.all (fun b => decide (0x20 ≤ b.toNat ∧ b.toNat ≤ 0x7E))) := by
  simp [docketOk, inRange, Bool.beq_eq_decide_eq]

/-- The first check of LOAD CREATE (R168). -/
theorem loadFieldsOk_eq (expected : Nat) (docket : List Byte) : (inRange 1 20000 expected && docketOk docket) =
    (decide (1 ≤ expected ∧ expected ≤ 20000 ∧ docket.length = 16)
      && docket.all (fun b => decide (0x20 ≤ b.toNat ∧ b.toNat ≤ 0x7E))) := by
  simp only [docketOk_eq, inRange, Bool.decide_and, Bool.and_assoc]

theorem inletSetupOk_eq (idle arm settle ullage : Nat) : inletSetupOk idle arm settle ullage =
    decide (5 ≤ idle ∧ idle ≤ 300 ∧ 1 ≤ arm ∧ arm ≤ 60 ∧ 30 ≤ settle ∧ settle ≤ 900 ∧ 90 ≤ ullage ∧ ullage ≤ 99) := by
  simp only [inletSetupOk, inRange, Bool.decide_and, Bool.and_assoc]

/-- The slot answered is the lowest FREE one; where there is none, the second check fails whatever slot stands for it. -/
theorem doLoadCreate_eq (d : CompId) (g : Grade) (expected : Nat) (docket : List Byte) (slot : Nat) (s : State) :
    doLoadCreate d.number g expected docket s = checkedReply
      [(inRange 1 20000 expected && docketOk docket, .malformed), ((lowestFree s.loads.orders 8).isSome, .tableFull)] s
      (okWith (u8 ((lowestFree s.loads.orders 8).getD slot))
        (setOrder ((lowestFree s.loads.orders 8).getD slot) (newOrder d g expected docket (siteTime s)) s)) := by
  simp only [doLoadCreate, fourOf_number]
  refine ite_eq_checkedReply (by rw [Bool.not_eq_true']) fun _ => ?_
  simp only [Config.loadSlots]
  cases lowestFree s.loads.orders 8 <;> rfl

theorem doInletSetup_eq (idle arm settle ullage : Nat) (s : State) : doInletSetup idle arm settle ullage s = checkedReply
    [(inletSetupOk idle arm settle ullage, .malformed), (!(activeOrder s).isSome, .busy)] s
    (answer .ok
      (setLoads { s.loads with setup := { idle := idle, arm := arm, settle := settle, ullage := ullage } } s)) :=
  ite_eq_checkedReply (by rw [Bool.not_eq_true']) fun _ => ite_eq_checkedReply (by rw [Bool.not_eq_false']) fun _ => rfl

/-- A slot that is FREE has no order to arm, cancel, abort, read or retire. -/
theorem orderCommands_free {slot : Nat} {s : State} (below : slot < 8) (free : tableGet s.loads.orders slot = none) :
    doLoadArm slot s = answer .noRecord s ∧ doLoadCancel slot s = answer .noRecord s
      ∧ doLoadAbort slot s = answer .noRecord s ∧ doLoadRead slot s = answer .noRecord s
      ∧ doLoadRetire slot s = answer .noRecord s := by
  have ok := loadSlotOk_iff.2 below
  simp [doLoadArm, doLoadCancel, doLoadAbort, doLoadRead, doLoadRetire, ok, free]

section
variable {slot : Nat} {o : LoadOrder} {s : State} (below : slot < 8) (found : tableGet s.loads.orders slot = some o)
include below found

theorem doLoadCancel_eq : doLoadCancel slot s = match o.state with
    | .planned => answer .ok
      (setOrder slot { o with state := .cancelled, endCause := some .hostAbort, completed := some (siteTime s) } s)
    | .armed => answer .ok (cancelOrder slot o .hostAbort s)
    | _ => answer .state s := by
  simp only [doLoadCancel, loadSlotOk_iff.2 below, found]
  cases o.state <;> rfl

theorem doLoadAbort_eq : doLoadAbort slot s =
    if o.state = .loading then answer .ok (closeInlet slot o .hostAbort s) else answer .state s := by
  simp [doLoadAbort, loadSlotOk_iff.2 below, found]

theorem doLoadRead_eq : doLoadRead slot s = okWith
    (orderBytes o
      ++ (if activeState o.state then optional u32 (orderTimer s) ++ flagByte (orderGauging o s) else [])) s := by
  simp [doLoadRead, loadSlotOk_iff.2 below, found]

theorem doLoadRetire_eq : doLoadRetire slot s =
    if o.state = .complete ∨ o.state = .cancelled then
      okWith (orderBytes o) (setLoads { s.loads with orders := tableErase s.loads.orders slot } s)
    else answer .state s := by
  simp [doLoadRetire, loadSlotOk_iff.2 below, found]

end

theorem orderGauging_eq (o : LoadOrder) (s : State) :
    orderGauging o s = (s.compartments.get o.compartment).gauge.any (fun g => g.origin == .load) := by
  unfold orderGauging
  cases (s.compartments.get o.compartment).gauge <;> rfl

/-- Settles O45, command by command. -/
theorem loadOrdersFollowR167R176 : Obligations.LoadOrdersFollowR167R176 := by
  refine ⟨fun s ready => ⟨?_, fun slot below free => ?_, fun slot o k below found at_comp => ?_, ?_, ?_⟩,
    fun n g expected docket s ready unnamed => ?_⟩
  · rintro d g expected docket slot _ rfl slotIs
    rw [exec_loadCreate, execLoadCreate,
      hostRow_checkedReply ready (doLoadCreate_eq d g expected docket slot s), loadFieldsOk_eq, slotIs]
    rfl
  · obtain ⟨-, cancels, aborts, reads, retires⟩ := orderCommands_free below free
    exact ⟨hostRow_answers ready cancels, hostRow_answers ready aborts, hostRow_answers ready reads,
      hostRow_answers ready retires⟩
  · have cancels := doLoadCancel_eq below found
    have aborts := doLoadAbort_eq below found
    refine ⟨fun planned => ?_, fun armed => ?_, fun notPlanned notArmed => ?_, fun loading => ?_, fun rests => ?_, ?_, ?_⟩
    · rw [planned] at cancels
      exact hostRow_answers ready cancels
    · rw [armed, cancelOrder_eq slot _ at_comp, armed] at cancels
      exact hostRow_answers ready cancels
    · refine hostRow_answers ready (cancels.trans ?_)
      cases is : o.state <;> first | rfl | contradiction
    · rw [if_pos loading] at aborts
      exact hostRow_answers ready aborts
    · rw [if_neg rests] at aborts
      exact hostRow_answers ready aborts
    · have retires := doLoadRetire_eq below found
      split_ifs at retires ⊢
      · exact hostRow_answers ready retires
      · exact hostRow_answers ready retires
    · refine (hostRow_answers ready (doLoadRead_eq below found)).trans ?_
      rw [activeState_eq, orderGauging_eq, at_comp]
      rfl
  · rintro idle arm settle ullage _ rfl
    rw [exec_inletSetup, execInletSetup, hostRow_checkedReply ready (doInletSetup_eq ..), inletSetupOk_eq,
      noActiveOrder_eq]
    rfl
  · refine hostRow_answers ready ?_
    simp only [doInletRead, ByFour.toList, List.flatMap_cons, List.flatMap_nil, List.append_nil, List.append_assoc]
    rfl
  · exact hostRow_answers ready (by rw [doLoadCreate, unnamed]; rfl)

end Sys2Proof.Machine
end

section
/-! PROOFS. LOAD ARM (R169, R170): the opening of the inlet, the start of the before gauge, the checks in order, and the
state that arming leaves. -/

namespace Sys2Proof.Machine

/-! ### The opening of the inlet (R170) -/

theorem inletMayOpen_iff (o : LoadOrder) (s : State) : inletMayOpen o s = true ↔
    s.loads.beforeEnded = true ∧ s.field.levels.coupled = true ∧ s.field.levels.estop = false
      ∧ s.field.levels.high.get o.compartment = false
      ∧ (s.compartments.get o.compartment).book < (s.loads.ullageLimit : Int) ∧ s.loads.lock = false := by
  simp [inletMayOpen, and_assoc]

/-- The order LOADING, the valve open, channel 4 opened. -/
def inletOpened (slot : Nat) (o : LoadOrder) (s : State) : State :=
  openChannel .four
    (setLoads
      { s.loads with orders := tableSet s.loads.orders slot { o with state := .loading }, valveOpen := true } s)

section
variable {slot : Nat} {o : LoadOrder} {s : State} (active : activeOrder s = some (slot, o))
include active

theorem tryOpenInlet_armed (armed : o.state = .armed) :
    tryOpenInlet s = if inletMayOpen o s = true then inletOpened slot o s else s := by
  simp only [tryOpenInlet, active, armed, true_and]
  rfl

theorem tryOpenInlet_started (started : o.state ≠ .armed) : tryOpenInlet s = s := by
  simp only [tryOpenInlet, active]
  exact if_neg fun both => started both.1

end

theorem notArmed_of_started {o : LoadOrder} (started : o.state = .loading ∨ o.state = .settling) : o.state ≠ .armed := by
  rcases started with is | is <;> simp [is]

theorem tryOpenInlet_none {s : State} (none : activeOrder s = none) : tryOpenInlet s = s := by
  simp only [tryOpenInlet, none]

/-! ### The start of a load gauge (R74, R77) -/

theorem raise_setComp (n : Notice) (c : CompId) (k : Compartment) (s : State) :
    raise n (setComp c k s) = setComp c k (raise n s) := by
  unfold raise
  rw [setComp_noticeMask]
  split <;> rfl

/-- A compartment whose load gauge starts: a host gauge in flight is aborted. -/
def loadGauging (k : Compartment) : Compartment :=
  { k with
    gauge := some { origin := .load, samples := 0, recent := [] }
    outcome := if k.gauge.any (fun g => g.origin == .host) then .aborted else k.outcome }

theorem startLoadGauge_eq {c : CompId} {k : Compartment} {s : State} (at_c : s.compartments.get c = k) :
    startLoadGauge c s =
      if k.gauge.any (fun g => g.origin == .host) then raise (.doneComp c) (setComp c (loadGauging k) s)
      else setComp c (loadGauging k) s := by
  have twice (j l : Compartment) : setComp c j (setComp c l s) = setComp c j s := by simp [setComp]
  cases gauging : k.gauge with
  | none => simp [startLoadGauge, abortHostGauge, loadGauging, at_c, gauging]
  | some g =>
    cases origin : g.origin with
    | host =>
      simp [startLoadGauge, abortHostGauge, abortGauge, loadGauging, at_c, gauging, origin, ← raise_setComp, twice]
    | load => simp [startLoadGauge, abortHostGauge, loadGauging, at_c, gauging, origin]

/-- R170: the before gauge starts where there is a strapping table, and counts as ended where there is none. -/
theorem startBeforeGauge_eq {c : CompId} {k : Compartment} {s : State} (at_c : s.compartments.get c = k) :
    startBeforeGauge c s =
      if k.strap.isSome then
        if k.gauge.any (fun g => g.origin == .host) then raise (.doneComp c) (setComp c (loadGauging k) s)
        else setComp c (loadGauging k) s
      else setLoads { s.loads with beforeEnded := true } s := by
  simp only [startBeforeGauge, at_c]
  cases k.strap with
  | none => rfl
  | some points => exact startLoadGauge_eq at_c

/-! ### The armed order (R169) -/

/-- Until the before gauge has ended, the inlet stays closed. -/
theorem tryOpenInlet_gauging {s : State} (gauging : s.loads.beforeEnded = false) : tryOpenInlet s = s := by
  unfold tryOpenInlet
  split
  · rfl
  · exact if_neg fun both => by simp [inletMayOpen, gauging] at both

/-- What arming leaves before its gauge or its inlet: the order ARMED, its compartment LOADING. -/
def orderArmed (slot : Nat) (o : LoadOrder) (s : State) : State := armOrder slot o (loadCompartment o s)

/-- Checks 6 to 8, one by one. -/
theorem checkedReply_armable (o : LoadOrder) (s : State) (r : Reply) :
    checkedReply [(armable o s, .state)] s r = checkedReply
      [((s.compartments.get o.compartment).grade == none || (s.compartments.get o.compartment).grade == some o.grade,
          .state),
        (s.store.meters.four.calibrated, .state), (!s.loads.lock, .state)] s r := by
  have sameGrade : ((s.compartments.get o.compartment).grade.getD o.grade == o.grade) =
      ((s.compartments.get o.compartment).grade == none || (s.compartments.get o.compartment).grade == some o.grade) := by
    cases (s.compartments.get o.compartment).grade <;> simp
  rw [armable, checkedReply_and, checkedReply_and, sameGrade]
  rfl

section
variable {o : LoadOrder} {k : Compartment} {s : State} (at_comp : s.compartments.get o.compartment = k)
include at_comp

theorem orderArmed_eq (slot : Nat) : orderArmed slot o s =
    { s with
      loads := { s.loads with
        orders := tableSet s.loads.orders slot { o with state := .armed, armed := some s.timebase.count }
        ullageLimit := s.loads.setup.ullage * k.capacity * 10000
        beforeEnded := false
        armTimer := some (s.timebase.now + s.loads.setup.arm * 60000)
        idleTimer := none, settleTimer := none, watch := none }
      compartments := s.compartments.set o.compartment
        { k with grade := some (k.grade.getD o.grade), state := .loading } } := by
  subst at_comp
  simp [orderArmed, armOrder, loadCompartment, setLoads, setComp, siteTime, instant]

/-- The checks of LOAD ARM in order. -/
theorem doLoadArm_eq {slot : Nat} (below : slot < 8) (found : tableGet s.loads.orders slot = some o) {r : Reply}
    (effect : activeOrder s = none → s.loads.lock = false →
      answer .ok (tryOpenInlet (startBeforeGauge o.compartment (orderArmed slot o s))) = r) :
    doLoadArm slot s = checkedReply
      [(o.state == .planned, .state), (!(activeOrder s).isSome, .busy), (k.state == .inService, .busy),
        (!drawnFrom o.compartment s, .busy), (k.grade == none || k.grade == some o.grade, .state),
        (s.store.meters.four.calibrated, .state), (!s.loads.lock, .state)] s r := by
  subst at_comp
  rw [doLoadArm, if_neg (by simp [loadSlotOk_iff.2 below])]
  simp only [found]
  refine ite_eq_checkedReply (by simp) fun _ => ite_eq_checkedReply (by simp) fun inactive => ?_
  refine ite_eq_checkedReply (by simp) fun _ => ite_eq_checkedReply (by simp) fun _ => ?_
  rw [← checkedReply_armable]
  refine ite_eq_checkedReply (by rw [Bool.not_eq_true']) fun mayArm => ?_
  exact effect (by simpa using inactive) (by simpa using (Bool.and_eq_true_iff.1 mayArm).2)

end

/-- Settles O46: the checks in order; then a strapping table, whose gauge the inlet waits for, or none, with the inlet by
the conditions of its opening. -/
theorem loadArmFollowsR169R170 : Obligations.LoadArmFollowsR169R170 := by
  intro slot o armed k kept s t ready below
  refine ⟨fun free => hostRow_answers ready (orderCommands_free below free).1,
    fun found at_comp armedIs keptIs tIs => ?_⟩
  have armedEq := orderArmed_eq at_comp slot
  rw [← armedIs, ← keptIs] at armedEq
  have at_armed : (orderArmed slot o s).compartments.get o.compartment = kept := by rw [armedEq, ByFour_get_set]
  have strapKept : kept.strap = k.strap := by rw [keptIs]
  have gaugeKept : kept.gauge = k.gauge := by rw [keptIs]
  rw [exec_loadArm, execLoadArm]
  refine (hostRow_checkedReply ready (doLoadArm_eq at_comp below found fun inactive unlocked => ?_)).trans
    (by rw [noActiveOrder_eq])
  refine congrArg (answer .ok) ?_
  have waits : (orderArmed slot o s).loads.beforeEnded = false := by rw [armedEq]
  rw [startBeforeGauge_eq at_armed, strapKept, gaugeKept]
  cases strapped : k.strap with
  | some points =>
    have gauges : setComp o.compartment (loadGauging kept) (orderArmed slot o s) = t := by
      rw [tIs, armedEq, strapped, loadGauging, gaugeKept, keptIs]
      simp [setComp]
    simp only [Option.isSome_some, if_true, gauges]
    refine tryOpenInlet_gauging ?_
    split <;> simp [← gauges, waits]
  | none =>
    have ended : setLoads { (orderArmed slot o s).loads with beforeEnded := true } (orderArmed slot o s) = t := by
      rw [tIs, armedEq, strapped]
      rfl
    have active : activeOrder t = some (slot, armed) := by
      rw [activeOrder, tIs]
      exact tableFind_set inactive (by rw [armedIs]; rfl)
    have opens : inletMayOpen armed t = true ↔ s.field.levels.coupled = true ∧ s.field.levels.estop = false
        ∧ s.field.levels.high.get o.compartment = false
        ∧ k.book < (s.loads.setup.ullage * k.capacity * 10000 : Nat) := by
      rw [inletMayOpen_iff]
      simp [tIs, armedIs, keptIs, strapped, unlocked]
    simp only [Option.isSome_none, Bool.false_eq_true, if_false]
    rw [ended, tryOpenInlet_armed active (by rw [armedIs])]
    refine if_congr opens ?_ rfl
    rw [tIs, inletOpened, setLoads, tableSet_set]
    rfl

end Sys2Proof.Machine
end

section
/-! PROOFS. The inlet's switches and timers (R170, R171, R173, R174), and what a window of the inlet meter does (R172, R173,
R175). -/

namespace Sys2Proof.Machine

/-! ### The rows of the two switches -/

/-- The coupling at level `b`, its change flag set. -/
def couplingMoved (b : Bool) (s : State) : State :=
  { s with
    field := { s.field with
      levels := placeCoupled b s.field.levels, changed := placeCoupled true s.field.changed } }

/-- The high-level switch of compartment `d` at level `b`, its change flag set. -/
def highMoved (d : CompId) (b : Bool) (s : State) : State :=
  { s with
    field := { s.field with levels := placeHigh d b s.field.levels, changed := placeHigh d true s.field.changed } }

section
variable {s : State} (running : s.supply.power = .running)
include running

theorem exec_inletCoupling_couples (uncoupled : s.field.levels.coupled = false) :
    exec (.inletCoupling true) s = happens (tryOpenInlet (couplingMoved true s)) :=
  next_switchStep (by simp [uncoupled]) running rfl

theorem exec_inletCoupling_uncouples (coupled : s.field.levels.coupled = true) :
    exec (.inletCoupling false) s = happens (endLoading .uncoupled (couplingMoved false s)) :=
  next_switchStep (by simp [coupled]) running rfl

theorem exec_highLevelSwitch_rises {d : CompId} (normal : s.field.levels.high.get d = false) :
    exec (.highLevelSwitch d true) s = happens (highLevel d (highMoved d true s)) :=
  next_switchStep (by simp [normal]) running rfl

theorem exec_highLevelSwitch_falls {d : CompId} (high : s.field.levels.high.get d = true) :
    exec (.highLevelSwitch d false) s = happens (tryOpenInlet (highMoved d false s)) :=
  next_switchStep (by simp [high]) running rfl

end

theorem exec_inletCoupling_same {b : Bool} {s : State} (same : s.field.levels.coupled = b) :
    exec (.inletCoupling b) s = .next s := by
  subst same
  exact congrArg Host.Outcome.next switchStep_same

theorem exec_highLevelSwitch_same {d : CompId} {b : Bool} {s : State} (same : s.field.levels.high.get d = b) :
    exec (.highLevelSwitch d b) s = .next s := by
  subst same
  exact congrArg Host.Outcome.next switchStep_same

/-! ### The end of the flow (R173) -/

theorem endLoading_none {s : State} (cause : EndCause) (none : loadingOrder s = none) : endLoading cause s = s := by
  rw [endLoading, none]

theorem endLoading_some {slot : Nat} {o : LoadOrder} {s : State} (cause : EndCause)
    (loading : loadingOrder s = some (slot, o)) : endLoading cause s = closeInlet slot o cause s := by
  rw [endLoading, loading]

theorem highLevel_none {s : State} (d : CompId) (none : loadingOrder s = none) : highLevel d s = s := by
  rw [highLevel, none]

theorem highLevel_own {slot : Nat} {o : LoadOrder} {s : State} (loading : loadingOrder s = some (slot, o)) :
    highLevel o.compartment s =
      report .inlet .highLevel o.compartment.number (o.net / 1000000 : Nat) (closeInlet slot o .highLevel s) := by
  simp only [highLevel, loading, if_true]
  rfl

theorem highLevel_other {slot : Nat} {o : LoadOrder} {d : CompId} {s : State} (loading : loadingOrder s = some (slot, o))
    (other : d ≠ o.compartment) : highLevel d s = s := by
  simp only [highLevel, loading]
  exact if_neg other.symm

section
variable {s : State} (running : s.supply.power = .running)
include running

/-- Without an active order a switch is placed and nothing more. -/
theorem exec_inletCoupling_inactive (inactive : activeOrder s = none) (b : Bool) (moves : s.field.levels.coupled ≠ b) :
    exec (.inletCoupling b) s = happens (couplingMoved b s) := by
  cases b with
  | true =>
    exact (exec_inletCoupling_couples running (by simpa using moves)).trans
      (congrArg happens (tryOpenInlet_none inactive))
  | false =>
    exact (exec_inletCoupling_uncouples running (by simpa using moves)).trans
      (congrArg happens (endLoading_none _ (loadingOrder_inactive inactive)))

theorem exec_highLevelSwitch_inactive (inactive : activeOrder s = none) (d : CompId) (b : Bool)
    (moves : s.field.levels.high.get d ≠ b) : exec (.highLevelSwitch d b) s = happens (highMoved d b s) := by
  cases b with
  | true =>
    exact (exec_highLevelSwitch_rises running (by simpa using moves)).trans
      (congrArg happens (highLevel_none d (loadingOrder_inactive inactive)))
  | false =>
    exact (exec_highLevelSwitch_falls running (by simpa using moves)).trans
      (congrArg happens (tryOpenInlet_none inactive))

end

/-! ### An event that opens the inlet of an ARMED order (R170) -/

/-- The event at a state of an ARMED order, `p` being the conditions of R170 that it leaves open. -/
theorem happens_tryOpenInlet {slot : Nat} {o : LoadOrder} {s : State} (active : activeOrder s = some (slot, o))
    (armed : o.state = .armed) {p : Prop} [Decidable p] (conditions : inletMayOpen o s = true ↔ p) :
    happens (tryOpenInlet s) = if p then happens (inletOpened slot o s) else happens s := by
  rw [tryOpenInlet_armed active armed, apply_ite happens]
  exact if_congr conditions rfl rfl

theorem inletMayOpen_couplingMoved (o : LoadOrder) (s : State) : inletMayOpen o (couplingMoved true s) = true ↔
    s.loads.beforeEnded = true ∧ s.field.levels.estop = false ∧ s.field.levels.high.get o.compartment = false
      ∧ (s.compartments.get o.compartment).book < (s.loads.ullageLimit : Int) ∧ s.loads.lock = false := by
  rw [inletMayOpen_iff]
  simp [couplingMoved, placeCoupled]

theorem inletMayOpen_highMoved_own (o : LoadOrder) (s : State) :
    inletMayOpen o (highMoved o.compartment false s) = true ↔
      s.loads.beforeEnded = true ∧ s.field.levels.coupled = true ∧ s.field.levels.estop = false
        ∧ (s.compartments.get o.compartment).book < (s.loads.ullageLimit : Int) ∧ s.loads.lock = false := by
  rw [inletMayOpen_iff]
  simp [highMoved, placeHigh]

theorem inletMayOpen_highMoved_other {o : LoadOrder} {d : CompId} (s : State) (other : d ≠ o.compartment) :
    inletMayOpen o (highMoved d false s) = true ↔
      s.loads.beforeEnded = true ∧ s.field.levels.coupled = true ∧ s.field.levels.estop = false
        ∧ s.field.levels.high.get o.compartment = false
        ∧ (s.compartments.get o.compartment).book < (s.loads.ullageLimit : Int) ∧ s.loads.lock = false := by
  rw [inletMayOpen_iff]
  simp [highMoved, placeHigh, ByFour_get_set_ne _ _ _ _ other.symm]

/-! ### The three timers (R171, R173, R174) -/

theorem fieldRow_expire {timer : State → Option Nat} {act : State → State} {s : State} {t : Nat}
    (running : s.supply.power = .running) (runs : timer s = some t) :
    fieldRow (fun u => expire (timer u) act u) s = happens (act (reachInstant t s)) := by
  rw [fieldRow_running running, runs, expire_some]

section
variable {slot : Nat} {o : LoadOrder} {s : State} {t : Nat} (running : s.supply.power = .running)
include running

theorem exec_armTimerExpiry_active (active : activeOrder s = some (slot, o)) (runs : s.loads.armTimer = some t) :
    exec .armTimerExpiry s = happens (raise (.load slot) (cancelOrder slot o .armTimeout (reachInstant t s))) := by
  have acts : armExpires (reachInstant t s) = raise (.load slot) (cancelOrder slot o .armTimeout (reachInstant t s)) := by
    rw [armExpires, show activeOrder (reachInstant t s) = some (slot, o) from active]
  exact (exec_armTimerExpiry s).trans ((fieldRow_expire running runs).trans (congrArg happens acts))

theorem exec_inletIdleTimerExpiry_loading (loading : loadingOrder s = some (slot, o)) (runs : s.loads.idleTimer = some t) :
    exec .inletIdleTimerExpiry s = happens (closeInlet slot o .depotStopped (reachInstant t s)) :=
  (exec_inletIdleTimerExpiry s).trans
    ((fieldRow_expire running runs).trans (congrArg happens (endLoading_some _ loading)))

theorem exec_loadSettleTimerExpiry_runs (runs : s.loads.settleTimer = some t) :
    exec .loadSettleTimerExpiry s = happens (loadSettleExpires (reachInstant t s)) :=
  (exec_loadSettleTimerExpiry s).trans (fieldRow_expire running runs)

end

section
variable {slot : Nat} {o : LoadOrder} {k : Compartment} {s : State} (active : activeOrder s = some (slot, o))
  (at_comp : s.compartments.get o.compartment = k)
include active at_comp

/-- R174: the after gauge starts. -/
theorem loadSettleExpires_gauges (strapped : k.strap.isSome) (free : k.gauge = none) : loadSettleExpires s =
    { s with
      loads := { s.loads with settleTimer := none }
      compartments := s.compartments.set o.compartment
        { k with gauge := some { origin := .load, samples := 0, recent := [] } } } := by
  obtain ⟨points, strapIs⟩ := Option.isSome_iff_exists.1 strapped
  have gauges := startLoadGauge_eq (s := setLoads { s.loads with settleTimer := none } s) at_comp
  simp only [loadSettleExpires, active, setLoads_compartments, at_comp, strapIs, gauges, loadGauging, free]
  rfl

/-- R174: without a strapping table the order completes at once. -/
theorem loadSettleExpires_completes (untabled : k.strap = none) : loadSettleExpires s = raise (.load slot)
    (compareRestock o.compartment
      { s with
        loads := { s.loads with
          orders := tableSet s.loads.orders slot
            { o with
              state := .complete, gaugeAfter := none, gaugeVariance := none
              docketVariance := some ((o.net : Int) - o.expected * 1000000)
              completed := some s.timebase.count }
          settleTimer := none, watch := none }
        compartments := s.compartments.set o.compartment { k with state := .inService } }) := by
  have docket : docketVarianceOf o = (o.net : Int) - o.expected * 1000000 := by
    simp [docketVarianceOf, Config.litre]
  have gauge : gaugeVarianceOf o none = none := by
    unfold gaugeVarianceOf
    cases o.gaugeBefore <;> rfl
  subst at_comp
  simp only [loadSettleExpires, active, untabled, completeOrder, docket, gauge, setLoads,
    releaseCompartment, setComp, siteTime]

end

/-! ### A window of the inlet meter (R172, R173, R175) -/

/-- What the valve watch can do: nothing, or the report and the lock. -/
theorem watchValve_cases (r : WindowResult) (s : State) : watchValve r s = s
    ∨ ∃ o : LoadOrder, watchValve r s = setLoads { s.loads with lock := true, watch := none }
        (report .inlet .inletValve o.compartment.number r.n s) := by
  unfold watchValve
  split
  · next o _ _ =>
    split_ifs
    · exact .inr ⟨_, rfl⟩
    · exact .inl rfl
  · exact .inl rfl

/-- Orders, ullage limit and inlet setup, instant and time, and the compartments are not the watch's. -/
theorem watchValve_frame (r : WindowResult) (s : State) :
    (watchValve r s).loads.orders = s.loads.orders ∧ (watchValve r s).loads.ullageLimit = s.loads.ullageLimit
      ∧ (watchValve r s).loads.setup = s.loads.setup ∧ (watchValve r s).timebase = s.timebase
      ∧ (watchValve r s).compartments = s.compartments := by
  rcases watchValve_cases r s with is | ⟨o, is⟩ <;> simp [is]

theorem ullageTest_eq {slot : Nat} {o : LoadOrder} {s : State} (loading : loadingOrder s = some (slot, o)) :
    ullageTest s = if (s.loads.ullageLimit : Int) ≤ (s.compartments.get o.compartment).book then endLoading .ullage s
      else s := by
  simp only [ullageTest, endLoading, loading]

/-- After flow start and idle supervision the LOADING order is the same slot's, of the same compartment. -/
theorem loadingOrder_superviseFlow {slot : Nat} {o : LoadOrder} {s : State} (n : Nat)
    (loading : loadingOrder s = some (slot, o)) :
    ∃ p, loadingOrder (superviseFlow slot o n s) = some (slot, p) ∧ p.compartment = o.compartment := by
  have isLoading := loadingOrder_state loading
  unfold superviseFlow
  split_ifs
  · exact ⟨o, loading, rfl⟩
  · exact ⟨_, tableFind_rewritten loading (beq_iff_eq.2 isLoading), rfl⟩

theorem handToLoad_none {r : WindowResult} {s : State} (none : loadingOrder s = none) : handToLoad r s = watchValve r s := by
  have still : loadingOrder (watchValve r s) = .none := by rw [loadingOrder, (watchValve_frame r s).1]; exact none
  simp only [handToLoad, still]

theorem handToLoad_some {r : WindowResult} {slot : Nat} {o : LoadOrder} {s : State}
    (loading : loadingOrder s = some (slot, o)) :
    handToLoad r s =
      if (s.loads.ullageLimit : Int) ≤ (s.compartments.get o.compartment).book then
        endLoading .ullage (superviseFlow slot o r.n (watchValve r s))
      else superviseFlow slot o r.n (watchValve r s) := by
  obtain ⟨orders, limit, -, -, compartments⟩ := watchValve_frame r s
  have still : loadingOrder (watchValve r s) = some (slot, o) := by rw [loadingOrder, orders]; exact loading
  have supervised : (superviseFlow slot o r.n (watchValve r s)).loads.ullageLimit = s.loads.ullageLimit
      ∧ (superviseFlow slot o r.n (watchValve r s)).compartments = s.compartments := by
    unfold superviseFlow
    split_ifs <;> simp [limit, compartments]
  obtain ⟨p, found, same⟩ := loadingOrder_superviseFlow r.n still
  simp only [handToLoad, still]
  rw [ullageTest_eq found, supervised.1, supervised.2, same]

/-- Flow start is written once, the arm timer stops, the idle timer starts afresh. -/
theorem superviseFlow_watched (slot : Nat) (o : LoadOrder) (r : WindowResult) (s : State) :
    superviseFlow slot o r.n (watchValve r s) = if r.n = 0 then watchValve r s else
      { watchValve r s with
        loads := { (watchValve r s).loads with
          orders := tableSet s.loads.orders slot { o with flowStart := some (o.flowStart.getD s.timebase.count) }
          armTimer := none, idleTimer := some (s.timebase.now + s.loads.setup.idle * 1000) } } := by
  obtain ⟨orders, -, setup, timebase, -⟩ := watchValve_frame r s
  rw [superviseFlow, siteTime, instant, orders, setup, timebase]
  rfl

/-- Settles O47: the switches and timers by the active order, then a window with and without a LOADING order. -/
theorem inletEventsFollowR170R174 : Obligations.InletEventsFollowR170R174 := by
  refine ⟨?_, fun r s watched => ⟨fun cause => endLoading_none cause, fun slot o cause => endLoading_some cause,
    fun watchedIs => ?_⟩⟩
  · intro slot o k s opened closed coupledTo highTo running at_comp openedIs closedIs coupledIs highIs
    obtain rfl : coupledTo = fun b => couplingMoved b s := funext coupledIs
    obtain rfl : highTo = fun d b => highMoved d b s := funext fun d => funext (highIs d)
    have openedCoupling (b) : opened (couplingMoved b s) = inletOpened slot o (couplingMoved b s) := openedIs _
    have openedHigh (d b) : opened (highMoved d b s) = inletOpened slot o (highMoved d b s) := openedIs _
    have closedEq (cause u) (loads : u.loads = s.loads) (time : u.timebase.count = s.timebase.count) :
        closed cause u = closeInlet slot o cause u := by
      rw [closedIs, closeInlet, loads, siteTime, time]
      rfl
    clear openedIs closedIs coupledIs highIs
    subst at_comp
    refine ⟨fun b => exec_inletCoupling_same, fun d b => exec_highLevelSwitch_same, fun none =>
      ⟨exec_inletCoupling_inactive running none, exec_highLevelSwitch_inactive running none⟩, fun none => ⟨?_, ?_⟩,
      fun active => ⟨fun started => ⟨?_, ?_⟩, fun armed => ⟨?_, ?_, ?_⟩, fun loading => ?_, ?_⟩⟩
    · exact fun coupled => (exec_inletCoupling_uncouples running coupled).trans
        (congrArg happens (endLoading_none _ (loadingOrder_none none)))
    · exact fun d normal => (exec_highLevelSwitch_rises running normal).trans
        (congrArg happens (highLevel_none d (loadingOrder_none none)))
    · exact fun uncoupled => (exec_inletCoupling_couples running uncoupled).trans
        (congrArg happens (tryOpenInlet_started active (notArmed_of_started started)))
    · exact fun d high => (exec_highLevelSwitch_falls running high).trans
        (congrArg happens (tryOpenInlet_started active (notArmed_of_started started)))
    · intro uncoupled
      rw [exec_inletCoupling_couples running uncoupled, openedCoupling]
      exact happens_tryOpenInlet (s := couplingMoved true s) active armed (inletMayOpen_couplingMoved o s)
    · intro high
      rw [exec_highLevelSwitch_falls running high, openedHigh]
      exact happens_tryOpenInlet (s := highMoved _ false s) active armed (inletMayOpen_highMoved_own o s)
    · intro d other high
      rw [exec_highLevelSwitch_falls running high, openedHigh]
      exact happens_tryOpenInlet (s := highMoved d false s) active armed (inletMayOpen_highMoved_other s other)
    · have isLoading : loadingOrder s = some (slot, o) := loadingOrder_of_active active loading
      refine ⟨fun coupled => ?_, fun normal => ?_, fun d other normal => ?_⟩
      · rw [exec_inletCoupling_uncouples running coupled, closedEq _ (couplingMoved false s) rfl rfl]
        exact congrArg happens (endLoading_some _ isLoading)
      · rw [exec_highLevelSwitch_rises running normal, closedEq _ (highMoved _ true s) rfl rfl]
        exact congrArg happens (highLevel_own (s := highMoved _ true s) isLoading)
      · rw [exec_highLevelSwitch_rises running normal]
        exact congrArg happens (highLevel_other isLoading other)
    · rintro t _ rfl
      refine ⟨fun _ runs => ?_, fun loading runs => ?_, fun _ runs => ⟨fun strapped free => ?_, fun untabled => ?_⟩⟩
      · rw [exec_armTimerExpiry_active running active runs, cancelOrder_eq slot .armTimeout rfl]
        rfl
      · rw [exec_inletIdleTimerExpiry_loading running (loadingOrder_of_active active loading) runs,
          closedEq _ (reachInstant t s) rfl rfl]
      · rw [exec_loadSettleTimerExpiry_runs running runs]
        exact congrArg happens (loadSettleExpires_gauges active rfl strapped free)
      · rw [exec_loadSettleTimerExpiry_runs running runs]
        exact congrArg happens (loadSettleExpires_completes active rfl untabled)
  · refine ⟨fun none => ?_, fun slot o flowed loading flowedIs => ?_⟩
    · exact (handToLoad_none none).trans watchedIs.symm
    · have watchedEq : watched = watchValve r s := watchedIs
      rw [watchedEq, ← superviseFlow_watched] at flowedIs
      rw [flowedIs]
      exact handToLoad_some loading

end Sys2Proof.Machine
end

section
/-! PROOFS. The Timebase (R179, R180, R182): the reply of each of its commands, the site clock's second, and the statement
with one rollover written out. -/

namespace Sys2Proof.Machine

/-! ### The instant (R179) -/

theorem reachInstant_eq (t : Nat) (s : State) : reachInstant t s = { s with
    timebase := { s.timebase with
      now := max s.timebase.now t
      capture := (s.timebase.capture + 1000 * (t - s.timebase.now)) % 2 ^ 32 } } := by
  rw [← reachInstant_now]
  rfl

/-! ### WINDOW SET, CLOCK SET, ROLLOVER SET and CLOCK READ (R179, R180) -/

theorem windowClamp_eq (n : Nat) : max 50 (min n 1000) = if n < 50 then 50 else if 1000 < n then 1000 else n := by
  split_ifs <;> omega

/-- The first CLOCK SET: the clock becomes SET, and nothing rolls over. -/
theorem doClockSet_first {n : Nat} {s : State} (fits : n < 2 ^ 32) (notSet : s.timebase.clockSet = false) :
    doClockSet n s = answer .ok (setCount n s) :=
  (if_neg (Nat.not_le.2 fits)).trans (if_neg (by simp [notSet]))

/-- A later one answers the old count, and rolls over once where the set passes an instant. -/
theorem doClockSet_again {n : Nat} {s : State} (fits : n < 2 ^ 32) (isSet : s.timebase.clockSet = true) :
    doClockSet n s = okWith (u32 s.timebase.count)
      (if s.timebase.count < n && instantBetween s.timebase.rolloverSecond s.timebase.count n then rollover (setCount n s)
        else setCount n s) :=
  (if_neg (Nat.not_le.2 fits)).trans (if_pos isSet)

/-- A set passes an instant only when it goes forward. -/
theorem setPassesInstant_iff {r : Nat} (hr : r < 86400) (a b : Nat) :
    (decide (a < b) && instantBetween r a b) = true ↔ ∃ t, a < t ∧ t ≤ b ∧ t % 86400 = r := by
  rw [Bool.and_eq_true, decide_eq_true_iff, instantBetween_iff hr]
  constructor
  · rintro ⟨-, t, at_r, after, upTo⟩
    exact ⟨t, after, upTo, at_r⟩
  · rintro ⟨t, after, upTo, at_r⟩
    exact ⟨after.trans_le upTo, t, at_r, after, upTo⟩

theorem doRolloverSet_eq (n : Nat) (s : State) : doRolloverSet n s = checkedReply [(decide (n < 86400), .malformed)] s
    (answer .ok (setTimebase { s.timebase with rolloverSecond := n } s)) := by
  rw [doRolloverSet, ← ite_not]
  exact ite_eq_checkedReply decide_eq_false_iff_not.symm fun _ => rfl

/-! ### The site clock's second (R180, R182) -/

/-- A second counted with main power: the count, kept as the last one counted. -/
def secondCounted (s : State) : State :=
  { s with timebase := { s.timebase with
      count := (s.timebase.count + 1) % 2 ^ 32, lastCounted := (s.timebase.count + 1) % 2 ^ 32 } }

theorem poweredSecond_eq (s : State) : poweredSecond s =
    if s.timebase.clockSet = true ∧ (s.timebase.count + 1) % 2 ^ 32 % 86400 = s.timebase.rolloverSecond then
      rollover (secondCounted s)
    else secondCounted s :=
  if_congr (by rw [Bool.and_eq_true, atRollover, beq_iff_eq]; rfl) rfl rfl

theorem exec_siteClockSecond_running {s : State} (running : s.supply.power = .running) :
    exec .siteClockSecond s = happens (poweredSecond s) := by
  rw [exec_siteClockSecond, execSiteClockSecond, clockSecond, running]
  rfl

/-! ### The statement -/

/-- Settles O48: each command by its reply, the second by its count; `rolled` is the model's rollover. -/
theorem timebaseFollowsR179R182 : Obligations.TimebaseFollowsR179R182 := by
  intro s rolled running second rolledIs
  obtain rfl : rolled = rollover := funext rolledIs
  refine ⟨fun t => reachInstant_eq t s, fun noWrite => ?_, ?_⟩
  · have ready : Ready s := ⟨running, noWrite⟩
    refine ⟨fun n w clamped => ?_, ?_, fun n => ?_, ?_⟩
    · rw [clamped, ← windowClamp_eq]
      exact (exec_windowSet n s).trans (hostRow_answers ready rfl)
    · rintro n _ fits rfl
      rw [exec_clockSet, execClockSet]
      refine ⟨fun notSet => hostRow_answers ready (doClockSet_first fits notSet), fun isSet => ?_⟩
      have replies := doClockSet_again fits isSet
      have passes := setPassesInstant_iff second s.timebase.count n
      refine ⟨fun passed => ?_, fun misses => ?_⟩
      · rw [if_pos (passes.2 passed)] at replies
        exact hostRow_answers ready replies
      · have passesNone := mt passes.1 fun ⟨t, after, upTo, at_r⟩ => misses t after upTo at_r
        rw [if_neg passesNone] at replies
        exact hostRow_answers ready replies
    · exact (exec_rolloverSet n s).trans (hostRow_checkedReply ready (doRolloverSet_eq n s))
    · exact (exec_clockRead s).trans (hostRow_answers ready rfl)
  · rintro n counted rfl countedIs
    rw [exec_siteClockSecond_running running, poweredSecond_eq, countedIs]
    refine ⟨fun isSet atSecond => ?_, fun misses => ?_⟩
    · rw [if_pos ⟨isSet, atSecond⟩]
      rfl
    · rw [if_neg fun ⟨isSet, atSecond⟩ => misses.elim (by simp [isSet]) fun other => other atSecond]
      rfl

end Sys2Proof.Machine
end

section
/-! PROOFS. FAULT READ, FAULT CONTROL and FAULT CLEAR (R186, R187): the bank they empty and what its clear releases. -/

namespace Sys2Proof.Machine

/-! ### What a clear leaves in the banks -/

theorem stopValid_setBank_empty (i : BankId) (s : State) (k : Bank) (empty : k.record = none) :
    stopValid i (setBank i k s) = false := by
  simp [stopValid, empty]

theorem stopValid_setBank_ne {i other : BankId} (s : State) (k : Bank) (distinct : other ≠ i) :
    stopValid other (setBank i k s) = stopValid other s := by
  simp [stopValid, bankGet_set_ne, distinct]

/-- The bank emptied and its FAULT notice removed, ahead of what the clear releases. -/
def clearedBank (i : BankId) (s : State) : State := dropNotice (.fault i) (emptyBank i s)

theorem stopValid_clearedBank (i : BankId) (s : State) : stopValid i (clearedBank i s) = false :=
  stopValid_setBank_empty i s _ rfl

theorem stopValid_clearedBank_ne {i other : BankId} (s : State) (distinct : other ≠ i) :
    stopValid other (clearedBank i s) = stopValid other s :=
  stopValid_setBank_ne s _ distinct

theorem doFaultClear_number (i : BankId) (s : State) : doFaultClear (bankNumber i) s =
    okWith (optional faultBytes (bankGet s.banks i).record) (releaseBank i (clearedBank i s)) := by
  rw [doFaultClear, bankOf_number]
  rfl

/-! ### What a clear releases (R187) -/

theorem releasedState_eq (h : Hose) :
    releasedState h = if h.session.any (fun x => x.due) then .complete else .idle := by
  cases session : h.session <;> simp [releasedState, session]

/-- The hose `h` with its lock, or the lock it returns to, released into `back` unless a STOP fault stays. -/
def unlockedHose (stays : Bool) (back : HoseState) (h : Hose) : Hose :=
  { h with
    state := if h.state = .locked ∧ stays = false then back else h.state
    returnState := if h.state = .outOfService ∧ h.returnState = some .locked ∧ stays = false then some back
      else h.returnState }

theorem releaseHose_eq (id : HoseId) (s : State) : releaseHose id s =
    setHose id (unlockedHose (hoseStopValid id s) (releasedState (s.hoses.get id)) (s.hoses.get id)) s := by
  have same : setHose id (s.hoses.get id) s = s := by simp [setHose]
  rw [releaseHose]
  cases hoseStopValid id s with
  | true => simp [unlockedHose, same]
  | false =>
    by_cases locked : (s.hoses.get id).state = .locked
    · simp [unlockedHose, locked]
    · by_cases returns : (s.hoses.get id).state = .outOfService ∧ (s.hoses.get id).returnState = some .locked
      · simp [unlockedHose, returns]
      · simp [unlockedHose, locked, returns, same]

theorem releaseHose_setHose (id : HoseId) (h : Hose) (s : State) : releaseHose id (setHose id h s) =
    setHose id (unlockedHose (hoseStopValid id s) (releasedState h) h) s := by
  have placed : (setHose id h s).hoses.get id = h := ByHose_get_set ..
  rw [releaseHose_eq, placed, setHose, setHose, ByHose_set_set]
  rfl

theorem releaseBank_meter (id : HoseId) (s : State) : releaseBank (.meter id.meter) s = releaseHose id s := by
  cases id <;> rfl

/-- After a clear of one of a hose's two banks only its other bank can still hold a STOP fault. -/
theorem hoseStopValid_clearedBank {i other : BankId} {id : HoseId} (s : State)
    (pair : (i = .hose id ∧ other = .meter id.meter) ∨ (i = .meter id.meter ∧ other = .hose id)) :
    hoseStopValid id (clearedBank i s) = stopValid other s := by
  rcases pair with ⟨rfl, rfl⟩ | ⟨rfl, rfl⟩
  · rw [hoseStopValid, stopValid_clearedBank, stopValid_clearedBank_ne s (by simp), Bool.false_or]
  · rw [hoseStopValid, stopValid_clearedBank, stopValid_clearedBank_ne s (by simp), Bool.or_false]

/-- A clear of HOSE, which also clears the leak latch, or of the hose's METER releases the hose alone. -/
theorem releaseBank_hosePair {i other : BankId} {id : HoseId} {leak : Bool} (s : State)
    (pair : (i = .hose id ∧ other = .meter id.meter ∧ leak = false)
      ∨ (i = .meter id.meter ∧ other = .hose id ∧ leak = (s.hoses.get id).leakLatch)) :
    releaseBank i (clearedBank i s) = setHose id
      { unlockedHose (stopValid other s) (releasedState (s.hoses.get id)) (s.hoses.get id) with leakLatch := leak }
      (clearedBank i s) := by
  rcases pair with ⟨rfl, rfl, rfl⟩ | ⟨rfl, rfl, rfl⟩
  · rw [← hoseStopValid_clearedBank s (.inl ⟨rfl, rfl⟩), releaseBank, releaseHose_setHose]
    rfl
  · rw [← hoseStopValid_clearedBank s (.inr ⟨rfl, rfl⟩), releaseBank_meter, releaseHose_eq]
    rfl

/-- A clear of INLET or of METER 4 clears the inlet lock unless the other of them still holds a STOP fault. -/
theorem releaseBank_inletPair {i other : BankId} (s : State)
    (pair : (i = .inlet ∧ other = .meter .four) ∨ (i = .meter .four ∧ other = .inlet)) :
    releaseBank i (clearedBank i s) = if stopValid other s = true then clearedBank i s
      else tryOpenInlet (setLoads { s.loads with lock := false } (clearedBank i s)) := by
  rcases pair with ⟨rfl, rfl⟩ | ⟨rfl, rfl⟩
  · rw [releaseBank, releaseInlet, stopValid_clearedBank, stopValid_clearedBank_ne s (by simp), Bool.false_or]
    rfl
  · rw [releaseBank, meterHose, releaseInlet, stopValid_clearedBank, stopValid_clearedBank_ne s (by simp), Bool.or_false]
    rfl

theorem releaseBank_others {i : BankId} (s : State) (others : (∃ id, i = .reader id) ∨ i = .gauge ∨ i = .table) :
    releaseBank i s = s := by
  rcases others with ⟨id, rfl⟩ | rfl | rfl <;> rfl

/-! ### FAULT READ and FAULT CONTROL (R186) -/

theorem doFaultRead_number (i : BankId) (s : State) : doFaultRead (bankNumber i) s = okWith
    (u8 (bankGet s.banks i).enable.toNat ++ flagByte (bankGet s.banks i).record.isSome
      ++ flagByte (bankGet s.banks i).overflow ++ (bankGet s.banks i).record.elim [] faultBytes) s := by
  rw [doFaultRead, bankOf_number]
  cases record : (bankGet s.banks i).record <;> simp [record]

theorem doFaultControl_number (i : BankId) (n : Nat) (s : State) : doFaultControl (bankNumber i) n s =
    checkedReply [(decide (n < 2 ^ (bankKinds i).length), .malformed)] s
      (answer .ok (setBank i { bankGet s.banks i with enable := BitVec.ofNat 8 n } s)) := by
  rw [doFaultControl, bankOf_number]
  dsimp only
  rw [← ite_not]
  exact ite_eq_checkedReply decide_eq_false_iff_not.symm fun _ => rfl

/-! ### The statement -/

/-- Settles O49: the replies of the three commands, and the release of a clear by the bank it empties. -/
theorem faultCommandsFollowR186R187 : Obligations.FaultCommandsFollowR186R187 := by
  refine ⟨fun i s e ready emptied => ?_, fun n k s ready unnamed => ?_⟩
  · obtain rfl : e = clearedBank i s := emptied
    refine ⟨?_, fun n => ?_, ?_⟩
    · exact (exec_faultRead _ s).trans (hostRow_answers ready (doFaultRead_number i s))
    · rw [exec_faultControl]
      refine (hostRow_checkedReply ready (doFaultControl_number i n s)).trans ?_
      cases i <;> rfl
    · rintro _ c payload rfl rfl
      have clears : ∀ t, releaseBank i (clearedBank i s) = t → exec (.faultClear (bankNumber i)) s =
          completes (.faultClear (bankNumber i)) .ok (optional faultBytes (bankGet s.banks i).record) t := by
        rintro _ rfl
        exact (exec_faultClear _ s).trans (hostRow_answers ready (doFaultClear_number i s))
      refine ⟨?_, fun other pair => ⟨fun stays => clears _ ?_, fun free => clears _ ?_⟩,
        fun others => clears _ (releaseBank_others _ others)⟩
      · rintro id other _ _ leak rfl pair rfl rfl
        rw [← releasedState_eq]
        exact clears _ (releaseBank_hosePair s pair)
      · rw [releaseBank_inletPair s pair, if_pos stays]
      · rw [releaseBank_inletPair s pair, if_neg (by simp [free])]
        rfl
  · have fails : ∀ {c : Instr} {body : State → Reply}, body s = answer .malformed s →
        hostRow c body s = completes c .malformed [] s := hostRow_answers ready
    rw [exec_faultRead, exec_faultControl, exec_faultClear]
    exact ⟨fails (by rw [doFaultRead, unnamed]), fails (by rw [doFaultControl, unnamed]),
      fails (by rw [doFaultClear, unnamed])⟩

end Sys2Proof.Machine
end

section
/-! PROOFS. The report of a fault to a bank (R184, R185): the enable bit of its kind, and the table of what the bank does. -/

namespace Sys2Proof.Machine

/-- A bank has each of its kinds once, so a kind's place in the bank is its bit of the enable set (12.1, R194). -/
theorem bankKinds_nodup (i : BankId) : (bankKinds i).Nodup := by
  cases i <;> simp [bankKinds]

theorem kindEnabled_eq {i : BankId} {bit : Nat} {kind : ErrorKind} (k : Bank) (place : (bankKinds i)[bit]? = some kind) :
    kindEnabled i k kind = k.enable.getLsbD bit := by
  obtain ⟨inBank, rfl⟩ := List.getElem?_eq_some_iff.1 place
  have found : (bankKinds i).idxOf? (bankKinds i)[bit] = some bit :=
    List.idxOf?_eq_some_iff.2 ⟨inBank, rfl, fun j before same =>
      before.ne ((List.Nodup.getElem_inj_iff (bankKinds_nodup i)).1 same)⟩
  rw [kindEnabled, found]

/-- Settles O50: the model's report by what the bank held before. -/
theorem reportFollowsR185 : Obligations.ReportFollowsR185 := by
  rintro i kind bit index detail s k f place rfl - rfl
  have enabled := kindEnabled_eq (bankGet s.banks i) place
  refine ⟨fun off => ?_, fun on => ⟨fun empty => ?_, fun held holds lower => ?_, fun held holds higher => ?_⟩⟩
  · rw [report, enabled, off]
    rfl
  · rw [report, enabled, on, empty]
    rfl
  · rw [report, enabled, on, holds]
    exact (if_pos rfl).trans (if_pos lower)
  · rw [report, enabled, on, holds]
    exact (if_pos rfl).trans (if_neg (Nat.not_lt.2 higher))

end Sys2Proof.Machine
end

section
/-! PROOFS. The notice set (R188, R189) and IDENTIFY (R193): the order of its members, the member NOTICE NEXT takes, and
what a mask and a raise leave. -/

namespace Sys2Proof.Machine

/-! ### The order of the members (R189) -/

theorem bankNumber_bounds (i : BankId) : 1 ≤ bankNumber i ∧ bankNumber i ≤ 13 := by
  cases i with
  | reader h => cases h <;> decide
  | hose h => cases h <;> decide
  | meter m => cases m <;> decide
  | gauge => decide
  | inlet => decide
  | table => decide

theorem hoseNumber_bounds (h : HoseId) : 1 ≤ h.number ∧ h.number ≤ 3 := by cases h <;> decide

theorem fourNumber_bounds (i : Four) : 1 ≤ i.number ∧ i.number ≤ 4 := by cases i <;> decide

theorem noticeKind_bounds (n : Notice) : 1 ≤ noticeKind n ∧ noticeKind n ≤ 8 := by
  cases n <;> simp [noticeKind]

/-- The sixteen places of a kind hold the ranks of its members. -/
theorem noticeRank_bounds (n : Notice) : 16 * noticeKind n ≤ noticeRank n ∧ noticeRank n < 16 * noticeKind n + 16 := by
  cases n with
  | fault b => have := bankNumber_bounds b; simp only [noticeRank, noticeKind]; omega
  | refer h | sessionEnd h | doneHose h => have := hoseNumber_bounds h; simp only [noticeRank, noticeKind]; omega
  | doneComp c | restock c => have := fourNumber_bounds c; simp only [noticeRank, noticeKind]; omega
  | load slot => simp only [noticeRank, noticeKind]; omega
  | day | restarted => decide

/-- Within DONE the compartments stand after the hoses. -/
def doneOffset : Notice → Nat
  | .doneComp _ => 4
  | _ => 0

theorem noticeRank_source {n : Notice} {i : Nat} (source : noticeSource n = some i)
    (slots : ∀ slot, n = .load slot → slot < 8) :
    noticeRank n = 16 * noticeKind n + doneOffset n + i := by
  cases n with
  | load slot =>
    cases source
    exact congrArg (64 + ·) (Nat.mod_eq_of_lt (slots _ rfl))
  | day | restarted => cases source
  | fault | refer | sessionEnd | doneHose | doneComp | restock => cases source; rfl

/-- Of two members of one kind only a hose's DONE is offset less than a compartment's. -/
theorem doneOffset_le {n m : Notice} (sameKind : noticeKind n = noticeKind m)
    (notAfter : ∀ h c, n = .doneComp c → m ≠ .doneHose h) : doneOffset n ≤ doneOffset m := by
  cases n with
  | doneComp c =>
    cases m with
    | doneHose h => exact absurd rfl (notAfter h c rfl)
    | doneComp => exact le_rfl
    | _ => cases sameKind
  | _ => exact Nat.zero_le _

/-- R189's words on which of two members goes first, as their ranks say it. -/
theorem noticeRank_lt {n m : Notice} (slotsN : ∀ slot, n = .load slot → slot < 8)
    (slotsM : ∀ slot, m = .load slot → slot < 8)
    (ahead : noticeKind n < noticeKind m
      ∨ (noticeKind n = noticeKind m ∧ ((∃ h c, n = .doneHose h ∧ m = .doneComp c)
        ∨ ((∀ h c, n = .doneComp c → m ≠ .doneHose h)
          ∧ ∃ i j, noticeSource n = some i ∧ noticeSource m = some j ∧ i < j)))) :
    noticeRank n < noticeRank m := by
  rcases ahead with higher | ⟨sameKind, ⟨h, c, rfl, rfl⟩ | ⟨notAfter, i, j, sourceN, sourceM, lower⟩⟩
  · have := noticeRank_bounds n
    have := noticeRank_bounds m
    omega
  · have := hoseNumber_bounds h
    simp only [noticeRank]
    omega
  · have := noticeRank_source sourceN slotsN
    have := noticeRank_source sourceM slotsM
    have := doneOffset_le sameKind notAfter
    omega

/-! ### The member NOTICE NEXT takes (R189) -/

theorem nextNotice_mem {l : List Notice} : ∀ {n}, nextNotice l = some n → n ∈ l := by
  induction l with
  | nil => nofun
  | cons a rest ih =>
    intro n next
    rw [nextNotice] at next
    cases later : nextNotice rest with
    | none =>
      rw [later] at next
      cases next
      exact .head _
    | some m =>
      rw [later] at next
      dsimp only at next
      split at next
      · cases next
        exact .tail _ (ih later)
      · cases next
        exact .head _

theorem nextNotice_eq {l : List Notice} {n : Notice} (inSet : n ∈ l)
    (first : ∀ m ∈ l, m ≠ n → noticeRank n < noticeRank m) :
    nextNotice l = some n := by
  induction l with
  | nil => cases inSet
  | cons a rest ih =>
    have firstOfRest : ∀ m ∈ rest, m ≠ n → noticeRank n < noticeRank m := fun m inRest => first m (.tail _ inRest)
    rw [nextNotice]
    by_cases front : a = n
    · subst front
      cases later : nextNotice rest with
      | none => rfl
      | some m =>
        have notBefore : ¬ noticeRank m < noticeRank a := by
          by_cases same : m = a
          · rw [same]
            exact lt_irrefl _
          · exact (firstOfRest m (nextNotice_mem later) same).asymm
        exact if_neg notBefore
    · have inRest : n ∈ rest := (List.mem_cons.1 inSet).resolve_left fun same => front same.symm
      rw [ih inRest firstOfRest]
      exact if_pos (first a (.head _) front)

theorem doNoticeNext_empty {s : State} (empty : s.notices = []) : doNoticeNext s = okWith [0, 0, 0] s := by
  rw [doNoticeNext, empty]
  rfl

theorem doNoticeNext_takes {s : State} {n : Notice} (next : nextNotice s.notices = some n) : doNoticeNext s =
    okWith (u8 (noticeKind n) ++ optional u8 (noticeSource n) ++ u8 (s.notices.filter (fun m => m != n)).length)
      (dropNotice n s) := by
  rw [doNoticeNext, next]
  rfl

/-! ### The mask and a raise (R188) -/

theorem maskEnables_ofNat (n : Nat) (m : Notice) : maskEnables (BitVec.ofNat 8 n) m = n.testBit (noticeKind m - 1) := by
  have inByte : noticeKind m - 1 < 8 := by
    have := noticeKind_bounds m
    omega
  rw [maskEnables, BitVec.getLsbD_ofNat, decide_eq_true inByte, Bool.true_and]

theorem doNoticeMask_fits {n : Nat} (s : State) (fits : n < 256) : doNoticeMask n s = okWith (u8 n)
    { s with
      noticeMask := BitVec.ofNat 8 n
      notices := s.notices.filter (fun m => n.testBit (noticeKind m - 1)) } := by
  have kept : maskEnables (BitVec.ofNat 8 n) = fun m => n.testBit (noticeKind m - 1) := funext (maskEnables_ofNat n)
  rw [← kept]
  exact if_pos fits

theorem raise_masked {n : Notice} {s : State} (masked : maskEnables s.noticeMask n = false) : raise n s = s :=
  if_neg (by simp [masked])

theorem raise_enabled {n : Notice} {s : State} (enabled : maskEnables s.noticeMask n = true) :
    raise n s = { s with notices := insertNotice n s.notices } :=
  if_pos enabled

/-- A set in the order of NOTICE NEXT takes a pending member no second time. -/
theorem insertNotice_pending {n : Notice} {l : List Notice} (pending : n ∈ l)
    (ordered : l.Pairwise (fun a b => noticeRank a ≤ noticeRank b ∧ a ≠ b)) : insertNotice n l = l := by
  induction l with
  | nil => cases pending
  | cons m rest ih =>
    obtain ⟨before, restOrdered⟩ := List.pairwise_cons.1 ordered
    rw [insertNotice]
    by_cases same : n = m
    · exact if_pos same
    · have inRest : n ∈ rest := (List.mem_cons.1 pending).resolve_left same
      rw [if_neg same, if_neg (Nat.not_lt.2 (before n inRest).1), ih inRest restOrdered]

theorem mem_insertNotice (n m : Notice) (l : List Notice) : m ∈ insertNotice n l ↔ m ∈ l ∨ m = n := by
  induction l with
  | nil => simp [insertNotice]
  | cons a rest ih =>
    rw [insertNotice]
    split_ifs with same
    · rw [same]
      exact (or_iff_left_of_imp fun front => front ▸ .head _).symm
    · exact List.mem_cons.trans or_comm
    · rw [List.mem_cons, ih, List.mem_cons, or_assoc]

/-! ### The statement -/

/-- Settles O51: the empty set, the member of lowest rank, the mask, a raise by the mask and the set, ATTN and IDENTIFY. -/
theorem noticeCommandsFollowR188R189 : Obligations.NoticeCommandsFollowR188R189 := by
  intro s ready
  rw [exec_noticeNext, exec_identify]
  refine ⟨fun empty => hostRow_answers ready (doNoticeNext_empty empty), ?_, fun n fits => ?_, fun n tooLarge => ?_,
    fun n => ⟨raise_masked, fun pending ordered _ => ?_, fun enabled => ?_⟩, ?_, hostRow_answers ready rfl⟩
  · rintro n _ inSet slots ahead rfl
    have slotOf : ∀ {m}, m ∈ s.notices → ∀ slot, m = .load slot → slot < 8 :=
      fun inSet slot isLoad => slots slot (isLoad ▸ inSet)
    have next := nextNotice_eq inSet fun m other differs =>
      noticeRank_lt (slotOf inSet) (slotOf other) (ahead m other differs)
    exact hostRow_answers ready (doNoticeNext_takes next)
  · exact (exec_noticeMask n s).trans (hostRow_answers ready (doNoticeMask_fits s fits))
  · exact (exec_noticeMask n s).trans (hostRow_answers ready (if_neg (Nat.not_lt.2 tooLarge)))
  · cases enabled : maskEnables s.noticeMask n with
    | false => exact raise_masked enabled
    | true => rw [raise_enabled enabled, insertNotice_pending pending ordered]
  · exact ⟨_, raise_enabled enabled, fun m => mem_insertNotice n m s.notices⟩
  · simp [attn, List.eq_nil_iff_forall_not_mem]

end Sys2Proof.Machine
end

section
/-! PROOFS. The link (R190 to R192): a command frame as its bytes spell it, what the ends of the two transactions and the
link reset do to the Command Port, and what the completion of a taken command leaves there. -/

namespace Sys2Proof.Machine

theorem portRow_running {act : State → Port → Port} {s : State} (running : s.supply.power = .running) :
    portRow act s = .next { s with port := act s s.port } := by
  rw [portRow, running]
  rfl

/-! ### Command frames (R191) -/

theorem u16_eq_iff (n : Nat) (x y : Byte) (fits : n < 65536) : [x, y] = u16 n ↔ n = x.toNat + 256 * y.toNat := by
  have bytes : u16 n = [BitVec.ofNat 8 n, BitVec.ofNat 8 (n / 256)] := rfl
  rw [bytes, List.cons.injEq, List.cons.injEq]
  have := x.isLt
  have := y.isLt
  simp only [← BitVec.toNat_inj, BitVec.toNat_ofNat, and_true]
  omega

theorem checkAgrees_iff (body : List Byte) (x y : Byte) :
    checkAgrees body [x, y] = true ↔ (crc16 body).toNat = x.toNat + 256 * y.toNat := by
  rw [checkAgrees, beq_iff_eq, u16_eq_iff _ x y (crc16 body).isLt]

/-- The bytes of a frame whose length and check agree, `code` and `seq` its first two and `payload` its payload. -/
def FrameOf (frame : List Byte) (code seq : Byte) (payload : List Byte) : Prop :=
  ∃ low high x y : Byte, frame = [code, seq, low, high] ++ payload ++ [x, y]
    ∧ low.toNat + 256 * high.toNat = payload.length ∧ payload.length ≤ 512
    ∧ (crc16 ([code, seq, low, high] ++ payload)).toNat = x.toNat + 256 * y.toNat

theorem frameTodo_frame {frame payload : List Byte} {code seq : Byte} (agrees : FrameOf frame code seq payload) :
    frameTodo frame = todoOf code payload := by
  obtain ⟨low, high, x, y, rfl, length, fits, check⟩ := agrees
  have body : ([code, seq, low, high] ++ payload ++ [x, y]).take (4 + payload.length) = [code, seq, low, high] ++ payload :=
    List.take_left' (Nat.add_comm payload.length 4)
  have field : ([code, seq, low, high] ++ payload ++ [x, y]).drop (4 + payload.length) = [x, y] :=
    List.drop_left' (Nat.add_comm payload.length 4)
  have accepted : low.toNat + 256 * high.toNat ≤ 512
      ∧ (payload ++ [x, y]).length = low.toNat + 256 * high.toNat + 2
      ∧ checkAgrees (([code, seq, low, high] ++ payload ++ [x, y]).take (4 + (low.toNat + 256 * high.toNat)))
        (([code, seq, low, high] ++ payload ++ [x, y]).drop (4 + (low.toNat + 256 * high.toNat))) = true := by
    rw [length, body, field]
    exact ⟨fits, by simp, (checkAgrees_iff _ x y).2 check⟩
  calc frameTodo ([code, seq, low, high] ++ payload ++ [x, y])
    _ = todoOf code ((payload ++ [x, y]).take (low.toNat + 256 * high.toNat)) := if_pos accepted
    _ = todoOf code payload := by rw [length, List.take_left]

theorem frameTodo_checkFailed {frame : List Byte} (disagrees : ¬ ∃ code seq payload, FrameOf frame code seq payload) :
    frameTodo frame = .reply .checkFailed := by
  unfold frameTodo
  split
  case h_2 => rfl
  case h_1 code seq low high rest =>
    refine if_neg fun ⟨fits, arrived, check⟩ => disagrees ⟨code, seq, rest.take (low.toNat + 256 * high.toNat), ?_⟩
    obtain ⟨x, y, tail⟩ := List.length_eq_two.1
      (show (rest.drop (low.toNat + 256 * high.toNat)).length = 2 by rw [List.length_drop, arrived]; omega)
    have whole : rest = rest.take (low.toNat + 256 * high.toNat) ++ [x, y] := by rw [← tail, List.take_append_drop]
    have length : (rest.take (low.toNat + 256 * high.toNat)).length = low.toNat + 256 * high.toNat := by
      rw [List.length_take, arrived]
      omega
    refine ⟨low, high, x, y, ?_, length.symm, length.le.trans fits, (checkAgrees_iff _ x y).1 ?_⟩
    · exact congrArg (code :: seq :: low :: high :: ·) whole
    · rw [← tail]
      simpa [Nat.add_comm 4] using check

/-! ### The end of a COMMAND transaction (R190) -/

/-- The port once the frame's bytes have been clocked in: zeros went out meanwhile. -/
def clockedIn (frame : List Byte) (p : Port) : Port := { p with shifted := frame.map (fun _ => 0) }

theorem commandEnds_turnedAway {frame : List Byte} {busy : Bool} {p : Port} (engaged : p.link ≠ .idle) :
    commandEnds frame busy p = { clockedIn frame p with overrun := true } := by
  unfold commandEnds
  dsimp only
  split
  case h_1 idle => exact absurd idle engaged
  case h_2 => rfl
  case h_3 => rfl

theorem commandEnds_idle {frame : List Byte} {busy : Bool} {p : Port} (idle : p.link = .idle) :
    commandEnds frame busy p = if p.executing.isSome || busy then
        { clockedIn frame p with link := .executing, waiting := some (takenFrame frame) }
      else startTaken (takenFrame frame) (clockedIn frame p) := by
  unfold commandEnds
  dsimp only
  split
  case h_1 => rfl
  case h_2 executes => exact absurd (idle.symm.trans executes) nofun
  case h_3 result => exact absurd (idle.symm.trans result) nofun

theorem commandEnds_waits {frame : List Byte} {busy : Bool} {p : Port} (idle : p.link = .idle)
    (runs : p.executing.isSome = true ∨ busy = true) : commandEnds frame busy p =
      { clockedIn frame p with link := .executing, waiting := some (takenFrame frame) } :=
  (commandEnds_idle idle).trans (if_pos ((Bool.or_eq_true ..).mpr runs))

theorem commandEnds_takes {frame : List Byte} {p : Port} (idle : p.link = .idle) (free : p.executing = none) :
    commandEnds frame false p = startTaken (takenFrame frame) (clockedIn frame p) :=
  (commandEnds_idle idle).trans (if_neg (by simp [free]))

theorem startTaken_run {w : Taken} {c : Instr} (p : Port) (runs : w.todo = .run c) :
    startTaken w p = { p with link := .executing, executing := some w } := by
  rw [startTaken, runs]

theorem startTaken_reply {w : Taken} {st : Status} (p : Port) (answers : w.todo = .reply st) : startTaken w p =
    { p with
      link := .result
      response := some { code := w.code, sequence := w.sequence, answer := ⟨st, []⟩ } } := by
  rw [startTaken, answers]

theorem exec_commandTransaction_running {s : State} (running : s.supply.power = .running) (frame : List Byte) :
    exec (.commandTransaction 1 frame) s = .next { s with port := commandEnds frame s.store.write.isSome s.port } := by
  rw [exec_commandTransaction, execCommandTransaction, portRow_running running]
  rfl

/-! ### The end of a READ transaction (R190, R192) -/

theorem exec_readTransaction_running {s : State} (running : s.supply.power = .running) (count : Nat) :
    exec (.readTransaction 2 count) s = .next { s with port := readEnds count (attn s) s.port } := by
  rw [exec_readTransaction, execReadTransaction, portRow_running running]
  rfl

theorem readEnds_result {count : Nat} {pending : Bool} {p : Port} {r : Response} {whole : List Byte}
    (result : p.link = .result) (response : p.response = some r)
    (wholeIs : whole = responseBytes r.code r.sequence r.answer.status p.overrun pending r.answer.payload) :
    readEnds count pending p = if whole.length ≤ count then
        { p with shifted := whole, link := .idle, response := none, overrun := false }
      else { p with shifted := whole.take count } := by
  subst wholeIs
  unfold readEnds
  simp only [result, response]

theorem readEnds_notReady {count : Nat} {pending : Bool} {p : Port} (notResult : p.link ≠ .result) :
    readEnds count pending p = { p with
      shifted := (responseBytes 0 (notReadySequence p) .notReady p.overrun pending []).take count } := by
  unfold readEnds
  split
  case h_1 result _ => exact absurd result notResult
  case h_2 => rfl

theorem notReadySequence_idle {p : Port} (idle : p.link = .idle) : notReadySequence p = 0 := by
  rw [notReadySequence, idle]

theorem notReadySequence_executing {p : Port} {t : Taken} (executes : p.link = .executing) (noneWaits : p.waiting = none)
    (runs : p.executing = some t) : notReadySequence p = t.sequence := by
  rw [notReadySequence, executes, noneWaits, runs]

/-! ### The completion of a taken command (R192) -/

theorem finishPort_wanted {c : Instr} {a : Answer} {p : Port} {t : Taken} (taken : p.executing = some t)
    (runs : t.todo = .run c) (wanted : t.wanted = true) : finishPort c a p = { p with
      answer := some a, executing := none, link := .result
      response := some { code := t.code, sequence := t.sequence, answer := a } } := by
  rw [finishPort, taken]
  simp only [runs, wanted, if_true]

theorem finishPort_unwanted {c : Instr} {a : Answer} {p : Port} {t : Taken} (taken : p.executing = some t)
    (runs : t.todo = .run c) (unwanted : t.wanted = false) :
    finishPort c a p = startWaiting { p with answer := some a, executing := none } := by
  rw [finishPort, taken]
  simp only [runs, unwanted, if_true, Bool.false_eq_true, if_false]

theorem startWaiting_none {p : Port} (noneWaits : p.waiting = none) : startWaiting p = p := by
  rw [startWaiting, noneWaits]

theorem startWaiting_some {p : Port} {w : Taken} (waits : p.waiting = some w) :
    startWaiting p = startTaken w { p with waiting := none } := by
  rw [startWaiting, waits]

/-! ### The statement -/

/-- Settles O52: the two transactions by the port's link state, the completion by what waits behind it, the reset. -/
theorem linkFollowsR190R192 : Obligations.LinkFollowsR190R192 := by
  rintro s _ _ frame running rfl rfl
  refine ⟨fun b other => ?_, fun b count other => ?_, fun engaged => ?_, fun idle free noWrite => ⟨?_, fun disagrees => ?_⟩,
    fun idle busy => ?_, fun c a t taken runs => ⟨fun wanted => ?_, fun unwanted noneWaits => ?_, ?_⟩,
    fun count => ⟨?_, ?_⟩, ?_⟩
  · have ignored : b.toNat ≠ 1 := fun same => other (BitVec.eq_of_toNat_eq same)
    rw [exec_commandTransaction, execCommandTransaction, portRow_running running, if_neg ignored]
  · have ignored : b.toNat ≠ 2 := fun same => other (BitVec.eq_of_toNat_eq same)
    rw [exec_readTransaction, execReadTransaction, portRow_running running, if_neg ignored]
  · rw [exec_commandTransaction_running running, commandEnds_turnedAway engaged]
    rfl
  · rintro code seq payload low high x y rfl length fits check
    have todo := frameTodo_frame ⟨low, high, x, y, rfl, length, fits, check⟩
    rw [exec_commandTransaction_running running, noWrite, Option.isSome_none, commandEnds_takes idle free]
    refine ⟨fun c parsed => ?_, fun st parsed => ?_⟩
    · rw [startTaken_run _ (todo.trans parsed), takenFrame, todo, parsed]
      rfl
    · rw [startTaken_reply _ (todo.trans parsed)]
      rfl
  · have todo : (takenFrame frame).todo = .reply .checkFailed := frameTodo_checkFailed disagrees
    rw [exec_commandTransaction_running running, noWrite, Option.isSome_none, commandEnds_takes idle free,
      startTaken_reply _ todo]
    rfl
  · rw [exec_commandTransaction_running running, commandEnds_waits idle busy]
    rfl
  · exact finishPort_wanted taken runs wanted
  · exact (finishPort_unwanted taken runs unwanted).trans (startWaiting_none noneWaits)
  · intro w d unwanted waits begins
    rw [finish_port, finishPort_unwanted taken runs unwanted]
    have starts := startWaiting_some (p := { s.port with answer := some a, executing := none }) waits
    exact starts.trans (startTaken_run _ begins)
  · intro r whole result response wholeIs
    have shifts := readEnds_result (count := count) (pending := attn s) result response wholeIs
    rw [exec_readTransaction_running running, shifts]
  · rintro seq (⟨idle, rfl⟩ | ⟨executes, noneWaits, t, taken, rfl⟩)
    · rw [exec_readTransaction_running running, readEnds_notReady (by rw [idle]; nofun), notReadySequence_idle idle]
      rfl
    · rw [exec_readTransaction_running running, readEnds_notReady (by rw [executes]; nofun),
        notReadySequence_executing executes noneWaits taken]
      rfl
  · rw [exec_linkReset, execLinkReset, portRow_running running]
    rfl

end Sys2Proof.Machine
end

section
/-! PROOFS. Ill-formed host commands (R191, 12.4): the forms in which a command's first checks are written, and every
host command by its form. -/

namespace Sys2Proof.Machine

/-! ### The forms of a first check -/

/-- A command that judges its fields. -/
theorem malformed_fields {ok : Bool} {s : State} {rest : Reply} (ill : ok = false) :
    (if !ok then answer .malformed s else rest) = answer .malformed s :=
  if_pos (congrArg (!·) ill)

/-- Of a number and fields judged together, the fields fail where the number names something. -/
theorem fields_illFormed {α : Type} {o : Option α} {x : α} {ok : Bool} (named : o = some x)
    (ill : (o.isSome && ok) = false) : ok = false := by
  subst named
  exact ill

/-! ### The commands of other forms -/

section
variable {s : State}

theorem doMachineAmendRewrite_illFormed {slot used overrun fills : Nat} {f : MachineFields}
    (ill : (machineSlotOk slot && machineFieldsOk f && rewriteFiguresOk used overrun fills) = false) :
    doMachineAmendRewrite slot f used overrun fills s = answer .malformed s := by
  have sameFields : rewriteFieldsOk f used overrun fills = (machineFieldsOk f && rewriteFiguresOk used overrun fills) := by
    rw [rewriteFieldsOk, rewriteFiguresOk, Bool.and_assoc, Bool.and_assoc, Bool.and_assoc]
  exact malformed_fields (by rw [sameFields, ← Bool.and_assoc, ill])

theorem doMachineFind_illFormed {key : MachineKey} (ill : machineKeyOk key = false) :
    doMachineFind key s = answer .malformed s := by
  cases key with
  | tag => exact malformed_fields ill
  | number => exact malformed_fields ill

theorem rangeEntry_none {entry : Nat} (noEntry : 8 ≤ entry) : s.ranges[entry]? = none :=
  Vector.getElem?_eq_none noEntry

theorem doRangeRead_illFormed {entry : Nat} (ill : decide (entry < 8) = false) :
    doRangeRead entry s = answer .malformed s := by
  rw [doRangeRead, rangeEntry_none (by simpa using ill)]

theorem doRangeWrite_illFormed {entry : Nat} {e : RangeEntry} (ill : (decide (entry < 8) && rangeEntryOk e) = false) :
    doRangeWrite entry e s = answer .malformed s := by
  rw [doRangeWrite]
  cases old : s.ranges[entry]? with
  | none => rfl
  | some =>
    have inTable : entry < 8 := by
      by_contra outside
      rw [rangeEntry_none (by omega)] at old
      cases old
    exact malformed_fields (by simpa [inTable] using ill)

theorem doDefaultPolicySet_illFormed {p : Policy} (ill : (p != .allow) = false) :
    doDefaultPolicySet p s = answer .malformed s :=
  if_pos (by simpa using ill)

theorem doAccountRead_illFormed {key : AccountKey} (ill : accountKeyOk key = false) :
    doAccountRead key s = answer .malformed s := by
  have refused : accountKeySlot key s = .error .malformed := by
    cases key with
    | slot => exact if_neg (by rw [show accountSlotOk _ = false from ill]; nofun)
    | number => exact if_neg (by rw [show inRange _ _ _ = false from ill]; nofun)
  rw [doAccountRead, refused]

theorem doAccountAmendRewrite_illFormed {slot number tier limit balance period : Nat} {current : PeriodFigures}
    (ill : (tierOk tier && accountSlotOk slot && accountFieldsOk number limit && decide (balance ≤ Config.moneyMax)
      && inRange 1 65535 period && periodFiguresOk current) = false) :
    doAccountAmendRewrite slot number tier limit balance period current s = answer .malformed s := by
  rw [doAccountAmendRewrite]
  cases named : tierOf tier with
  | none => rfl
  | some => exact malformed_fields (fields_illFormed named (by simpa only [tierOk, Bool.and_assoc] using ill))

theorem doPriceWrite_illFormed {tier price : Nat} {grade : Grade}
    (ill : (tierOk tier && decide (price < 1000000)) = false) : doPriceWrite tier grade price s = answer .malformed s := by
  rw [doPriceWrite]
  cases named : tierOf tier with
  | none => rfl
  | some => exact if_neg (of_decide_eq_false (fields_illFormed named ill))

theorem doRestate_illFormed {comp : Nat} {source : RestateSource} (ill : (fourOk comp && restateSourceOk source) = false) :
    doRestate comp source s = answer .malformed s := by
  have judged : restateMalformed source = !restateSourceOk source := by cases source <;> rfl
  rw [doRestate, judged]
  cases named : fourOf comp with
  | none => rfl
  | some => exact malformed_fields (fields_illFormed named ill)

theorem doReferReplyAccept_illFormed {hose account limit : Nat} {grades : GradeSet}
    (ill : (hoseOk hose && accountSlotOk account && permittedSet grades && inRange 1 20000 limit) = false) :
    doReferReplyAccept hose account grades limit s = answer .malformed s := by
  rw [doReferReplyAccept]
  cases named : hoseOf hose with
  | none => rfl
  | some => exact malformed_fields (fields_illFormed named (by simpa only [hoseOk, Bool.and_assoc] using ill))

theorem doHoseSetup_illFormed {hose : Nat} {f : HoseSetupFields}
    (ill : (hoseOf hose).any (fun id => (setupOf id f).isSome) = false) : doHoseSetup hose f s = answer .malformed s := by
  rw [doHoseSetup]
  cases named : hoseOf hose with
  | none => rfl
  | some id =>
    have unfit : setupOf id f = none := by simpa [named] using ill
    dsimp only
    rw [unfit]

theorem doMetrologyWrite_illFormed {meter pulseVolume : Nat} {points : List LinPoint}
    (ill : (fourOk meter && meterFieldsOk pulseVolume points) = false) :
    doMetrologyWrite meter pulseVolume points s = answer .malformed s := by
  unfold doMetrologyWrite
  cases named : fourOf meter with
  | none => rfl
  | some m =>
    cases points with
    | nil => rfl
    | cons p rest => exact malformed_fields (fields_illFormed named ill)

theorem doProveResult_illFormed {hose observed : Nat} (ill : (hoseOk hose && decide (observed ≤ 4000000)) = false) :
    doProveResult hose observed s = answer .malformed s := by
  rw [doProveResult]
  cases named : hoseOf hose with
  | none => rfl
  | some => exact if_pos (Nat.not_le.1 (of_decide_eq_false (fields_illFormed named ill)))

theorem doClockSet_illFormed {count : Nat} (ill : decide (count < Config.clockModulus) = false) :
    doClockSet count s = answer .malformed s :=
  if_pos (by simpa using ill)

theorem doRolloverSet_illFormed {second : Nat} (ill : decide (second < Config.dayLength) = false) :
    doRolloverSet second s = answer .malformed s :=
  if_neg (by simpa using ill)

theorem doFaultControl_illFormed {bank enable : Nat} (ill : wellFormed (.faultControl bank enable) = false) :
    doFaultControl bank enable s = answer .malformed s := by
  change (match bankOf bank with
    | none => false
    | some (.reader _) => decide (enable < 4)
    | some (.hose _) => decide (enable < 32)
    | some (.meter _) => decide (enable < 8)
    | some .gauge => decide (enable < 4)
    | some .inlet => decide (enable < 4)
    | some .table => decide (enable < 2)) = false at ill
  rw [doFaultControl]
  cases named : bankOf bank with
  | none => rfl
  | some i =>
    rw [named] at ill
    cases i <;> exact if_neg (of_decide_eq_false ill)

theorem doNoticeMask_illFormed {mask : Nat} (ill : decide (mask < 256) = false) :
    doNoticeMask mask s = answer .malformed s :=
  if_neg (of_decide_eq_false ill)

end

/-! ### Every host command -/

/-- Settles O56: each host command by the form of its first checks; one without fields has none to fail. -/
theorem illFormedHostCommandsAreMalformed : Obligations.IllFormedHostCommandsAreMalformed := by
  intro c s ready host ill
  have refuses {body : State → Reply} (row : exec c s = hostRow c body s) (refused : body s = answer .malformed s) :
      exec c s = completes c .malformed [] s := row.trans (hostRow_answers ready refused)
  cases c with
  | priceRead | fieldStatus | inletRead | windowSet | clockRead | noticeNext | restart | identify => cases ill
  | machineInstall | machineAmendChange | machineRead | machineSuspend | machineReinstate | machineRetire | tagQuery
  | accountStop | accountResume | accountRetire | settle | periodClose | statementRead | statementRelease
  | gradeCoefficientWrite | loadArm | loadCancel | loadAbort | loadRead | loadRetire | inletSetup =>
    exact refuses rfl (malformed_fields ill)
  | readerStatus | compartmentService | compartmentRead | strapRead | gauge | referReplyRefuse | referReplyRecheck
  | hoseRead | hoseService | rewind | hoseStop | sessionRead | meterRead | metrologyRead | proveAbort | proveRead
  | faultRead | faultClear =>
    refine refuses rfl ?_
    simp only [doReaderStatus, doCompartmentService, doCompartmentRead, doStrapRead, doGauge, doReferReplyRefuse,
      doReferReplyRecheck, doHoseRead, doHoseService, doRewind, doHoseStop, doSessionRead, doMeterRead, doMetrologyRead,
      doProveAbort, doProveRead, doFaultRead, doFaultClear]
    split
    case h_1 => rfl
    case h_2 named => exact nomatch (congrArg Option.isSome named).symm.trans ill
  | readerSetup | accountOpen | strapWrite | collect =>
    refine refuses rfl ?_
    simp only [doReaderSetup, doAccountOpen, doStrapWrite, doCollect]
    split
    case h_1 => rfl
    case h_2 named => exact malformed_fields (fields_illFormed named ill)
  | accountAmendChange | compartmentSetup | authoriseManual | proveStart | loadCreate =>
    refine refuses rfl ?_
    simp only [doAccountAmendChange, doCompartmentSetup, doAuthoriseManual, doProveStart, doLoadCreate]
    split
    case h_1 => rfl
    case h_2 named => exact malformed_fields (fields_illFormed named ((Bool.and_assoc ..).symm.trans ill))
  | machineAmendRewrite => exact refuses rfl (doMachineAmendRewrite_illFormed ill)
  | machineFind => exact refuses rfl (doMachineFind_illFormed ill)
  | rangeWrite => exact refuses rfl (doRangeWrite_illFormed ill)
  | rangeRead => exact refuses rfl (doRangeRead_illFormed ill)
  | defaultPolicySet => exact refuses rfl (doDefaultPolicySet_illFormed ill)
  | accountAmendRewrite => exact refuses rfl (doAccountAmendRewrite_illFormed ill)
  | accountRead => exact refuses rfl (doAccountRead_illFormed ill)
  | priceWrite => exact refuses rfl (doPriceWrite_illFormed ill)
  | restate => exact refuses rfl (doRestate_illFormed ill)
  | referReplyAccept => exact refuses rfl (doReferReplyAccept_illFormed ill)
  | hoseSetup => exact refuses rfl (doHoseSetup_illFormed ill)
  | metrologyWrite => exact refuses rfl (doMetrologyWrite_illFormed ill)
  | proveResult => exact refuses rfl (doProveResult_illFormed ill)
  | clockSet => exact refuses rfl (doClockSet_illFormed ill)
  | rolloverSet => exact refuses rfl (doRolloverSet_illFormed ill)
  | faultControl => exact refuses rfl (doFaultControl_illFormed ill)
  | noticeMask => exact refuses rfl (doNoticeMask_illFormed ill)
  | _ => exact nomatch host

end Sys2Proof.Machine
end

section
/-! PROOFS. The step (0.2): the command taken from an empty queue's own pending work, or the 1 ms tick. -/

namespace Sys2Proof.Machine

theorem step_empty {s : State} (empty : s.pending = []) : step s = idle s := by
  rw [step, empty]

theorem idle_works {s : State} {c : Instr} (work : ownWork s = some c) : idle s = exec c s := by
  rw [idle, work]

theorem ownWork_running {s : State} (running : s.supply.power = .running) :
    ownWork s = (tagWork s).or ((readerWork s).or (portWork s)) := by
  rw [ownWork, running]

/-! ### Tag events (R37) -/

theorem tagWork_none {s : State} (quiet : ∀ id, (s.readers.get id).events = []) : tagWork s = none := by
  have h1 : s.readers.h1.events = [] := quiet .h1
  have h2 : s.readers.h2.events = [] := quiet .h2
  have h3 : s.readers.h3.events = [] := quiet .h3
  rw [tagWork, h1, h2, h3]
  rfl

/-- The events of the lowest-numbered port that has raised one are taken first. -/
theorem tagWork_first {s : State} {id : HoseId} {c : Instr} (raised : tagEventRow id (s.readers.get id).events = some c)
    (quiet : ∀ d : HoseId, d.number < id.number → (s.readers.get d).events = []) : tagWork s = some c := by
  cases id with
  | h1 => exact congrArg (Option.or · _) raised
  | h2 =>
    have h1 : s.readers.h1.events = [] := quiet .h1 (by decide)
    rw [tagWork, h1]
    exact congrArg (Option.or · _) raised
  | h3 =>
    have h1 : s.readers.h1.events = [] := quiet .h1 (by decide)
    have h2 : s.readers.h2.events = [] := quiet .h2 (by decide)
    rw [tagWork, h1, h2]
    exact raised

/-! ### FIFO entries (R28) -/

theorem readerWork_none {s : State} (quiet : ∀ id, (s.readers.get id).fifo = []) : readerWork s = none := by
  have h1 : s.readers.h1.fifo = [] := quiet .h1
  have h2 : s.readers.h2.fifo = [] := quiet .h2
  have h3 : s.readers.h3.fifo = [] := quiet .h3
  rw [readerWork, h1, h2, h3]
  rfl

/-- The entry of the lowest-numbered port that holds one is taken first. -/
theorem readerWork_first {s : State} {id : HoseId} (holds : (s.readers.get id).fifo ≠ [])
    (quiet : ∀ d : HoseId, d.number < id.number → (s.readers.get d).fifo = []) :
    readerWork s = some (.fifoEntryTaken id) := by
  have waits : (!(s.readers.get id).fifo.isEmpty) = true := by simpa using holds
  cases id with
  | h1 => exact if_pos waits
  | h2 =>
    have h1 : s.readers.h1.fifo = [] := quiet .h1 (by decide)
    rw [readerWork, h1]
    exact if_pos waits
  | h3 =>
    have h1 : s.readers.h1.fifo = [] := quiet .h1 (by decide)
    have h2 : s.readers.h2.fifo = [] := quiet .h2 (by decide)
    rw [readerWork, h1, h2]
    exact if_pos waits

/-! ### The tick, and the statement -/

theorem idle_ticks {s : State} (running : s.supply.power = .running) (nothing : ownWork s = none) :
    idle s = .next { s with timebase := { s.timebase with
      now := s.timebase.now + 1, capture := (s.timebase.capture + 1000) % 2 ^ 32 } } := by
  rw [idle, nothing, tick, running]
  rfl

/-- Settles O55: the queue's front, and on an empty queue the first of the controller's own work in its order. -/
theorem stepExecutesTheFrontCommand : Obligations.StepExecutesTheFrontCommand := by
  refine ⟨fun c rest s queue => ?_, fun s empty running quiet => ?_, fun s id empty running => ?_⟩
  · rw [step, queue]
  · rw [step_empty empty]
    have work : ownWork s = portWork s := by
      rw [ownWork_running running, tagWork_none fun id => (quiet id).2, readerWork_none fun id => (quiet id).1]
      rfl
    refine ⟨fun untaken => idle_ticks running ?_, fun t c taken runs noWrite => idle_works ?_⟩
    · rw [work, portWork, untaken]
    · rw [work, portWork, taken, noWrite]
      dsimp only
      rw [runs]
  · rw [step_empty empty]
    refine ⟨fun v rest raised lower => ?_, fun quiet holds lower => idle_works ?_⟩
    · have takes : ∀ c, tagEventRow id (v :: rest) = some c → idle s = exec c s := fun c row => idle_works <| by
        rw [ownWork_running running, tagWork_first (raised ▸ row) lower]
        rfl
      cases v with
      | present t => exact takes _ rfl
      | lost t => exact takes _ rfl
      | changed t u => exact takes _ rfl
    · rw [ownWork_running running, tagWork_none quiet, readerWork_first holds lower]
      rfl

end Sys2Proof.Machine
end

section
/-! PROOFS. The law of tables, books and load orders (R62, R166) as one predicate, turned to the active order; and what
each update of the state needs in order to keep it. -/

namespace Sys2Proof.Machine

/-! ### The order table by its active order (R166) -/

/-- `active` is the order under way: the one entry of the table that is ARMED, LOADING or SETTLING. -/
def ActiveIs (active : Option (Nat × LoadOrder)) (orders : Table LoadOrder) : Prop :=
  ∀ p, (p ∈ orders ∧ activeState p.2.state = true) ↔ active = some p

theorem mem_iff_tableGet {α : Type} {t : Table α} (rising : tableRising t = true) (p : Nat × α) :
    p ∈ t ↔ tableGet t p.1 = some p.2 := ⟨tableGet_of_mem rising, mem_of_tableGet⟩

theorem mem_tableSet_iff {α : Type} {t : Table α} (rising : tableRising t = true) (i : Nat) (a : α) (p : Nat × α) :
    p ∈ tableSet t i a ↔ p = (i, a) ∨ (p ∈ t ∧ p.1 ≠ i) := by
  obtain ⟨j, b⟩ := p
  rw [mem_iff_tableGet (tableRising_set i a rising), mem_iff_tableGet rising, tableGet_set]
  by_cases same : j = i
  · simp [same, eq_comm]
  · simp [same]

theorem mem_tableErase_iff {α : Type} {t : Table α} (rising : tableRising t = true) (i : Nat) (p : Nat × α) :
    p ∈ tableErase t i ↔ p ∈ t ∧ p.1 ≠ i := by
  obtain ⟨j, b⟩ := p
  rw [mem_iff_tableGet (tableRising_erase i rising), mem_iff_tableGet rising, tableGet_erase]
  by_cases same : j = i <;> simp [same]

section
variable {orders : Table LoadOrder} {active : Option (Nat × LoadOrder)}

theorem ActiveIs.activeOrder_eq {s : State} (is : ActiveIs active s.loads.orders) : activeOrder s = active := by
  cases found : activeOrder s with
  | none =>
    cases active with
    | none => rfl
    | some p =>
      obtain ⟨listed, isActive⟩ := (is p).2 rfl
      exact absurd isActive (by rw [tableFind_none.1 found p listed]; nofun)
  | some p =>
    obtain ⟨listed, isActive⟩ := tableFind_some found
    exact ((is p).1 ⟨listed, isActive⟩).symm

/-- The order a slot holds is the active one, where it is under way. -/
theorem ActiveIs.of_tableGet {slot : Nat} {o : LoadOrder} (is : ActiveIs active orders)
    (found : tableGet orders slot = some o) (isActive : activeState o.state = true) : active = some (slot, o) :=
  (is (slot, o)).1 ⟨mem_of_tableGet found, isActive⟩

/-- An order under way is not in a slot whose order is not. -/
theorem slot_ne_of_resting {slot : Nat} (rising : tableRising orders = true)
    (rests : ∀ o, tableGet orders slot = some o → activeState o.state = false) {p : Nat × LoadOrder}
    (listed : p ∈ orders) (isActive : activeState p.2.state = true) : p.1 ≠ slot := by
  rintro rfl
  rw [rests p.2 ((mem_iff_tableGet rising p).1 listed)] at isActive
  cases isActive

variable (rising : tableRising orders = true) (is : ActiveIs active orders)
include rising is

/-- An order under way is written into the active order's slot, or into any slot where none is under way. -/
theorem ActiveIs.write_active {slot : Nat} {o : LoadOrder} (own : ∀ p, active = some p → p.1 = slot)
    (isActive : activeState o.state = true) : ActiveIs (some (slot, o)) (tableSet orders slot o) := by
  intro p
  rw [mem_tableSet_iff rising]
  constructor
  · rintro ⟨rfl | ⟨listed, other⟩, activeP⟩
    · rfl
    · exact absurd (own p ((is p).1 ⟨listed, activeP⟩)) other
  · rintro ⟨⟩
    exact ⟨.inl rfl, isActive⟩

/-- The active order's slot takes an order that is no longer under way. -/
theorem ActiveIs.write_ended {slot : Nat} {o : LoadOrder} (own : ∀ p, active = some p → p.1 = slot)
    (ended : activeState o.state = false) : ActiveIs none (tableSet orders slot o) := by
  intro p
  rw [mem_tableSet_iff rising]
  refine iff_of_false ?_ nofun
  rintro ⟨rfl | ⟨listed, other⟩, activeP⟩
  · exact absurd activeP (by rw [ended]; nofun)
  · exact other (own p ((is p).1 ⟨listed, activeP⟩))

/-- A slot that holds no order under way takes one that is not. -/
theorem ActiveIs.write_resting {slot : Nat} {o : LoadOrder}
    (before : ∀ u, tableGet orders slot = some u → activeState u.state = false) (after : activeState o.state = false) :
    ActiveIs active (tableSet orders slot o) := by
  intro p
  rw [mem_tableSet_iff rising, ← is p]
  constructor
  · rintro ⟨rfl | ⟨listed, -⟩, activeP⟩
    · exact absurd activeP (by rw [after]; nofun)
    · exact ⟨listed, activeP⟩
  · rintro ⟨listed, activeP⟩
    exact ⟨.inr ⟨listed, slot_ne_of_resting rising before listed activeP⟩, activeP⟩

theorem ActiveIs.erase_resting {slot : Nat}
    (before : ∀ u, tableGet orders slot = some u → activeState u.state = false) :
    ActiveIs active (tableErase orders slot) := by
  intro p
  rw [mem_tableErase_iff rising, ← is p]
  constructor
  · rintro ⟨⟨listed, -⟩, activeP⟩
    exact ⟨listed, activeP⟩
  · rintro ⟨listed, activeP⟩
    exact ⟨⟨listed, slot_ne_of_resting rising before listed activeP⟩, activeP⟩

end

/-! ### The law -/

/-- Valve and timers are those of the active order's state (R166, R171, R173). -/
def DrivesFollow (active : Option (Nat × LoadOrder)) (l : LoadController) : Prop :=
  (l.valveOpen = true → ∃ p, active = some p ∧ p.2.state = .loading)
    ∧ (l.armTimer.isSome = true → ∃ p, active = some p ∧ (p.2.state = .armed ∨ p.2.state = .loading))
    ∧ (l.settleTimer.isSome = true → ∃ p, active = some p ∧ p.2.state = .settling)

/-- The active order's compartment is LOADING, and no other (R166). -/
def CompsFollow (active : Option (Nat × LoadOrder)) (compartments : ByFour Compartment) : Prop :=
  ∀ c : CompId, (compartments.get c).state = .loading ↔ ∃ p, active = some p ∧ p.2.compartment = c

theorem ActiveIs.exists_iff {active : Option (Nat × LoadOrder)} {orders : Table LoadOrder} (is : ActiveIs active orders)
    {holds : LoadOrder → Prop} (underWay : ∀ o, holds o → activeState o.state = true) :
    (∃ p ∈ orders, holds p.2) ↔ ∃ p, active = some p ∧ holds p.2 := by
  constructor
  · rintro ⟨p, listed, holdsP⟩
    exact ⟨p, (is p).1 ⟨listed, underWay _ holdsP⟩, holdsP⟩
  · rintro ⟨p, isP, holdsP⟩
    exact ⟨p, ((is p).2 isP).1, holdsP⟩

/-- R166 in terms of the active order. -/
theorem loadLaw_iff (s : State) : LoadLaw s ↔
    ∃ active, ActiveIs active s.loads.orders ∧ CompsFollow active s.compartments ∧ DrivesFollow active s.loads := by
  have rest {active} (is : ActiveIs active s.loads.orders) :
      ((∀ c : CompId, (s.compartments.get c).state = .loading ↔
          ∃ p ∈ s.loads.orders, activeState p.2.state = true ∧ p.2.compartment = c)
        ∧ (s.loads.valveOpen = true → ∃ p ∈ s.loads.orders, p.2.state = .loading)
        ∧ (s.loads.armTimer.isSome = true → ∃ p ∈ s.loads.orders, p.2.state = .armed ∨ p.2.state = .loading)
        ∧ (s.loads.settleTimer.isSome = true → ∃ p ∈ s.loads.orders, p.2.state = .settling))
      ↔ CompsFollow active s.compartments ∧ DrivesFollow active s.loads := by
    have comps (c : CompId) : (∃ p ∈ s.loads.orders, activeState p.2.state = true ∧ p.2.compartment = c)
        ↔ ∃ p, active = some p ∧ p.2.compartment = c := by
      rw [is.exists_iff (holds := fun o => activeState o.state = true ∧ o.compartment = c) fun _ h => h.1]
      exact exists_congr fun p => and_congr_right fun isP => and_iff_right ((is p).2 isP).2
    rw [is.exists_iff (holds := fun o => o.state = .loading) (fun _ h => by rw [h]; rfl),
      is.exists_iff (holds := fun o => o.state = .armed ∨ o.state = .loading)
        (fun _ h => by rcases h with h | h <;> rw [h] <;> rfl),
      is.exists_iff (holds := fun o => o.state = .settling) (fun _ h => by rw [h]; rfl)]
    simp only [comps, CompsFollow, DrivesFollow]
  constructor
  · rintro ⟨unique, others⟩
    have is : ActiveIs (activeOrder s) s.loads.orders := by
      intro p
      constructor
      · rintro ⟨listed, activeP⟩
        cases found : activeOrder s with
        | none => exact absurd activeP (by rw [tableFind_none.1 found p listed]; nofun)
        | some q =>
          obtain ⟨listedQ, activeQ⟩ := tableFind_some found
          exact congrArg some (unique q listedQ p listed activeQ activeP)
      · intro found
        exact tableFind_some found
    exact ⟨_, is, (rest is).1 others⟩
  · rintro ⟨active, is, others⟩
    refine ⟨fun p listedP q listedQ activeP activeQ => ?_, (rest is).2 others⟩
    exact Option.some.inj (((is p).1 ⟨listedP, activeP⟩).symm.trans ((is q).1 ⟨listedQ, activeQ⟩))

/-- R62, R166: the tables in canonical form, the books balanced, the load orders lawful. -/
def Lawful (s : State) : Prop := TablesWf s ∧ BookLaw s ∧ LoadLaw s

/-- A compartment's book is what its base and its two totals make it (R62). -/
def Balanced (k : Compartment) : Prop := k.book = (k.base : Int) + k.loaded - k.dispensed

/-- The law with the active order named. -/
structure LawfulWith (active : Option (Nat × LoadOrder)) (s : State) : Prop where
  machines : tableWf Config.machineSlots s.machines = true
  accounts : tableWf Config.accountSlots s.accounts = true
  orders : tableWf Config.loadSlots s.loads.orders = true
  books : ∀ c : CompId, Balanced (s.compartments.get c)
  only : ActiveIs active s.loads.orders
  comps : CompsFollow active s.compartments
  drives : DrivesFollow active s.loads

theorem lawful_iff (s : State) : Lawful s ↔ ∃ active, LawfulWith active s := by
  simp only [Lawful, loadLaw_iff]
  constructor
  · rintro ⟨⟨machines, accounts, orders⟩, books, active, only, comps, drives⟩
    exact ⟨active, machines, accounts, orders, books, only, comps, drives⟩
  · rintro ⟨active, machines, accounts, orders, books, only, comps, drives⟩
    exact ⟨⟨machines, accounts, orders⟩, books, active, only, comps, drives⟩

theorem LawfulWith.lawful {active : Option (Nat × LoadOrder)} {s : State} (law : LawfulWith active s) : Lawful s :=
  (lawful_iff s).2 ⟨active, law⟩

theorem LawfulWith.rising {active : Option (Nat × LoadOrder)} {s : State} (law : LawfulWith active s) :
    tableRising s.loads.orders = true := by
  have wf := law.orders
  rw [tableWf, Bool.and_eq_true] at wf
  exact wf.1

section
variable {s t : State} (law : Lawful s)
include law

theorem Lawful.with_activeOrder : LawfulWith (activeOrder s) s := by
  obtain ⟨active, is⟩ := (lawful_iff s).1 law
  rw [is.only.activeOrder_eq]
  exact is

theorem Lawful.balanced (c : CompId) : Balanced (s.compartments.get c) := law.with_activeOrder.books c

/-- What tables, compartments and load controller do not show does not matter. -/
theorem Lawful.of_same (machines : t.machines = s.machines) (accounts : t.accounts = s.accounts)
    (compartments : t.compartments = s.compartments) (loads : t.loads = s.loads) : Lawful t := by
  have with_active := law.with_activeOrder
  obtain ⟨machinesWf, accountsWf, ordersWf, books, only, comps, drives⟩ := with_active
  exact LawfulWith.lawful (active := activeOrder s) ⟨machines ▸ machinesWf, accounts ▸ accountsWf, loads ▸ ordersWf,
    compartments ▸ books, loads ▸ only, compartments ▸ comps, loads ▸ drives⟩

end

/-! ### Updates that the law does not see -/

section
variable (s : State)

@[simp] theorem setHose_lawful (id : HoseId) (h : Hose) : Lawful (setHose id h s) ↔ Lawful s := Iff.rfl
@[simp] theorem setReader_lawful (id : HoseId) (r : Reader) : Lawful (setReader id r s) ↔ Lawful s := Iff.rfl
@[simp] theorem setChannel_lawful (m : MeterId) (c : Channel) : Lawful (setChannel m c s) ↔ Lawful s := Iff.rfl
@[simp] theorem openChannel_lawful (m : MeterId) : Lawful (openChannel m s) ↔ Lawful s := Iff.rfl
@[simp] theorem setStore_lawful (x : MetrologyStore) : Lawful (setStore x s) ↔ Lawful s := Iff.rfl
@[simp] theorem setTimebase_lawful (x : Timebase) : Lawful (setTimebase x s) ↔ Lawful s := Iff.rfl
@[simp] theorem setPort_lawful (p : Port) : Lawful (setPort p s) ↔ Lawful s := Iff.rfl
@[simp] theorem setBank_lawful (i : BankId) (k : Bank) : Lawful (setBank i k s) ↔ Lawful s := Iff.rfl
@[simp] theorem setLevels_lawful (v : Switches) : Lawful (setLevels v s) ↔ Lawful s := Iff.rfl
@[simp] theorem setChanged_lawful (v : Switches) : Lawful (setChanged v s) ↔ Lawful s := Iff.rfl
@[simp] theorem dropNotice_lawful (n : Notice) : Lawful (dropNotice n s) ↔ Lawful s := Iff.rfl
@[simp] theorem reachInstant_lawful (t : Nat) : Lawful (reachInstant t s) ↔ Lawful s := Iff.rfl
@[simp] theorem evaluatePermit_lawful : Lawful (evaluatePermit s) ↔ Lawful s := Iff.rfl
@[simp] theorem finish_lawful (c : Instr) (a : Answer) : Lawful (finish c a s) ↔ Lawful s := Iff.rfl

@[simp] theorem raise_lawful (n : Notice) : Lawful (raise n s) ↔ Lawful s := by
  unfold raise
  split <;> exact Iff.rfl

@[simp] theorem report_lawful (i : BankId) (kind : ErrorKind) (index : Nat) (detail : Int) :
    Lawful (report i kind index detail s) ↔ Lawful s := by
  rcases report_cases i kind index detail s with ⟨-, is⟩ | ⟨-, -, is⟩ | ⟨-, -, is⟩ | ⟨-, -, is⟩ <;> simp [is]

end

/-! ### Records -/

section
variable {s : State} (law : Lawful s)
include law

theorem machineSlot_lt {slot : Nat} {m : MachineRecord} (found : machineAt slot s = some m) :
    slot < Config.machineSlots := lt_of_tableGet law.with_activeOrder.machines found

theorem accountSlot_lt {slot : Nat} {a : AccountRecord} (found : accountAt slot s = some a) :
    slot < Config.accountSlots := lt_of_tableGet law.with_activeOrder.accounts found

/-- The machine table is replaced by a well-formed one. -/
theorem machines_lawful {machines : Table MachineRecord} (wf : tableWf Config.machineSlots machines = true) :
    Lawful { s with machines := machines } :=
  have is := law.with_activeOrder
  LawfulWith.lawful (active := activeOrder s) ⟨wf, is.accounts, is.orders, is.books, is.only, is.comps, is.drives⟩

theorem accounts_lawful {accounts : Table AccountRecord} (wf : tableWf Config.accountSlots accounts = true) :
    Lawful { s with accounts := accounts } :=
  have is := law.with_activeOrder
  LawfulWith.lawful (active := activeOrder s) ⟨is.machines, wf, is.orders, is.books, is.only, is.comps, is.drives⟩

theorem putMachine_lawful {slot : Nat} (below : slot < Config.machineSlots) (m : MachineRecord) :
    Lawful (putMachine slot m s) := machines_lawful law (tableWf_set m below law.with_activeOrder.machines)

theorem writeMachine_lawful {slot : Nat} (below : slot < Config.machineSlots) (m : MachineRecord) :
    Lawful (writeMachine slot m s) := putMachine_lawful law below _

theorem putAccount_lawful {slot : Nat} (below : slot < Config.accountSlots) (a : AccountRecord) :
    Lawful (putAccount slot a s) := accounts_lawful law (tableWf_set a below law.with_activeOrder.accounts)

theorem writeAccount_lawful {slot : Nat} (below : slot < Config.accountSlots) (a : AccountRecord) :
    Lawful (writeAccount slot a s) := putAccount_lawful law below _

/-! ### Compartments -/

/-- A compartment takes a balanced record that is LOADING exactly when the old one was. -/
theorem setComp_lawful {c : CompId} {k : Compartment} (balanced : Balanced k)
    (loading : k.state = .loading ↔ (s.compartments.get c).state = .loading) : Lawful (setComp c k s) := by
  have is := law.with_activeOrder
  refine LawfulWith.lawful (active := activeOrder s)
    ⟨is.machines, is.accounts, is.orders, fun d => ?_, is.only, fun d => ?_, is.drives⟩
  all_goals
    rw [setComp_compartments, ByFour_get_set_cases]
    split
  · exact balanced
  · exact is.books d
  next same => rw [loading, same]; exact is.comps c
  next => exact is.comps d

/-- A compartment with state, book, base and totals as they were. -/
theorem setComp_lawful_of_same {c : CompId} {k : Compartment}
    (same : (k.state, k.book, k.base, k.loaded, k.dispensed) = ((s.compartments.get c).state, (s.compartments.get c).book,
      (s.compartments.get c).base, (s.compartments.get c).loaded, (s.compartments.get c).dispensed)) :
    Lawful (setComp c k s) := by
  simp only [Prod.mk.injEq] at same
  obtain ⟨state, book, base, loaded, dispensed⟩ := same
  refine setComp_lawful law ?_ (by rw [state])
  rw [Balanced, book, base, loaded, dispensed]
  exact law.balanced c

end

end Sys2Proof.Machine
end

section
/-! PROOFS. The law of tables, books and load orders under the shared operations: records, compartments, the ends of sessions
and runs, and each way in which a load order moves on (R62 to R64, R128 to R130, R166 to R174). -/

namespace Sys2Proof.Machine

section
variable {s : State} (law : Lawful s)
include law

/-! ### Records, index and references -/

@[simp] theorem changeAccount_lawful (slot : Nat) (f : AccountRecord → AccountRecord) :
    Lawful (changeAccount slot f s) := by
  unfold changeAccount
  split
  · exact law
  next a found => exact writeAccount_lawful law (accountSlot_lt law found) (f a)

@[simp] theorem moveReference_lawful (old new : Option Nat) : Lawful (moveReference old new s) := by
  cases old <;> cases new <;> simp [moveReference, addReference, dropReference, law, apply_ite Lawful]

@[simp] theorem unindexTank_lawful (slot : Nat) (t : Option Tank) : Lawful (unindexTank slot t s) := by
  rw [unindexTank_frame]
  exact law

@[simp] theorem indexTank_lawful (slot : Nat) (kind : TankKind) (t : Option Tank) : Lawful (indexTank slot kind t s) := by
  cases t <;> exact law

@[simp] theorem freeMachine_lawful (slot : Nat) (m : MachineRecord) : Lawful (freeMachine slot m s) := by
  have erased := machines_lawful law (tableWf_erase slot law.with_activeOrder.machines)
  exact changeAccount_lawful (unindexTank_lawful (unindexTank_lawful erased slot m.fuel) slot m.fluid) ..

@[simp] theorem verifyMachine_lawful {slot : Nat} {m : MachineRecord} (found : machineAt slot s = some m) :
    Lawful (verifyMachine slot m s).2 := by
  have stored := putMachine_lawful law (machineSlot_lt law found) { m with state := .quarantined }
  unfold verifyMachine
  split
  · exact law
  · split <;> simp [law, stored]

@[simp] theorem verifyAccount_lawful {slot : Nat} {a : AccountRecord} (found : accountAt slot s = some a) :
    Lawful (verifyAccount slot a s).2 := by
  have stored := putAccount_lawful law (accountSlot_lt law found) { a with state := .quarantined }
  unfold verifyAccount
  split
  · exact law
  · split <;> simp [law, stored]

@[simp] theorem rollover_lawful : Lawful (rollover s) := by
  have fresh := machines_lawful law
    (tableWf_map (fun m => machineStamp { m with used := 0, overrun := 0 }) law.with_activeOrder.machines)
  rw [rollover, raise_lawful]
  exact fresh.of_same rfl rfl rfl rfl

/-! ### Compartments -/

@[simp] theorem compareRestock_lawful (c : CompId) : Lawful (compareRestock c s) := by
  have marked := setComp_lawful_of_same law (c := c) (k := restocked (s.compartments.get c)) rfl
  rcases compareRestock_eq c s with is | is <;> simp [is, marked]

/-- R62: book falls by what the dispensed total rises. -/
@[simp] theorem debit_lawful (c : CompId) (net released : Nat) : Lawful (debit c net released s) := by
  have balanced := law.balanced c
  unfold debit
  dsimp only
  apply compareRestock_lawful
  refine setComp_lawful law ?_ Iff.rfl
  simp only [Balanced] at balanced ⊢
  omega

/-- R62: book rises by what the loaded total rises. -/
@[simp] theorem credit_lawful (c : CompId) (net : Nat) : Lawful (credit c net s) := by
  have balanced := law.balanced c
  unfold credit
  dsimp only
  apply compareRestock_lawful
  refine setComp_lawful law ?_ Iff.rfl
  simp only [Balanced] at balanced ⊢
  omega

@[simp] theorem abortGauge_lawful (c : CompId) : Lawful (abortGauge c s) := by
  rw [abortGauge_eq]
  exact setComp_lawful_of_same law rfl

@[simp] theorem abortHostGauge_lawful (c : CompId) : Lawful (abortHostGauge c s) := by
  unfold abortHostGauge
  split <;> simp [law, apply_ite Lawful]

theorem closeCompartment_lawful (x : Session) : Lawful (closeCompartment x s) := by
  unfold closeCompartment
  apply compareRestock_lawful
  exact setComp_lawful_of_same law rfl

@[simp] theorem startLoadGauge_lawful (c : CompId) : Lawful (startLoadGauge c s) :=
  setComp_lawful_of_same (abortHostGauge_lawful law c) rfl

@[simp] theorem handGaugeToHost_lawful (c : CompId) : Lawful (handGaugeToHost c s) := by
  unfold handGaugeToHost
  dsimp only
  split
  · exact law
  · exact setComp_lawful_of_same law rfl

/-! ### Hoses: ends of sessions, requests, runs and rewinds -/

theorem closeMachine_lawful (id : HoseId) (x : Session) (stop : StopCause) : Lawful (closeMachine id x stop s) := by
  unfold closeMachine
  split
  · exact law
  · split
    · exact law
    next found =>
      have written := writeMachine_lawful law (machineSlot_lt law found)
      simp [written, law, apply_ite Lawful]

@[simp] theorem closeSession_lawful (id : HoseId) (cause : Option StopCause) : Lawful (closeSession id cause s) := by
  cases session : (s.hoses.get id).session with
  | none => rwa [closeSession_none session]
  | some x =>
    rw [closeSession_eq session rfl, raise_lawful, setHose_lawful]
    exact closeCompartment_lawful (changeAccount_lawful (closeMachine_lawful law ..) ..) x

@[simp] theorem enterStopping_lawful (id : HoseId) (cause : StopCause) (atWindow : Bool) :
    Lawful (enterStopping id cause atWindow s) := law

@[simp] theorem stopSession_lawful (id : HoseId) (cause : StopCause) : Lawful (stopSession id cause s) := by
  unfold stopSession
  split <;> simp [law]

@[simp] theorem writeRefusal_lawful (id : HoseId) (tag : Option Nat) (reason : Reason) :
    Lawful (writeRefusal id tag reason s) := law

@[simp] theorem endWaiting_lawful (id : HoseId) : Lawful (endWaiting id s) := law

@[simp] theorem endReferred_lawful (id : HoseId) (reason : Reason) : Lawful (endReferred id reason s) := law

@[simp] theorem endRun_lawful (id : HoseId) (outcome : RunOutcome) (next : HoseState) :
    Lawful (endRun id outcome next s) := by
  simpa [endRun] using law

@[simp] theorem stopFault_lawful (id : HoseId) (cause : StopCause) : Lawful (stopFault id cause s) := by
  unfold stopFault
  dsimp only
  split <;> simp [law, apply_ite Lawful]

@[simp] theorem stopRewind_lawful (id : HoseId) (outcome : RewindOutcome) : Lawful (stopRewind id outcome s) := by
  simp [stopRewind, law, apply_ite Lawful]

@[simp] theorem endRewind_lawful (id : HoseId) (outcome : RewindOutcome) : Lawful (endRewind id outcome s) := by
  simp [endRewind, law, apply_ite Lawful]

end

/-! ### The load controller -/

theorem drivesFollow_some {slot : Nat} {o : LoadOrder} {l : LoadController} : DrivesFollow (some (slot, o)) l ↔
    (l.valveOpen = true → o.state = .loading)
      ∧ (l.armTimer.isSome = true → o.state = .armed ∨ o.state = .loading)
      ∧ (l.settleTimer.isSome = true → o.state = .settling) := by
  simp [DrivesFollow]

theorem drivesFollow_none {l : LoadController} : DrivesFollow none l ↔
    l.valveOpen = false ∧ l.armTimer = none ∧ l.settleTimer = none := by
  simp [DrivesFollow]

section
variable {s : State} {l : LoadController} {slot : Nat} {o p : LoadOrder}

/-- Orders as they were, valve and timers as the active order's state wants them. -/
theorem setLoads_lawful (law : Lawful s) (orders : l.orders = s.loads.orders) (drives : DrivesFollow (activeOrder s) l) :
    Lawful (setLoads l s) := by
  have is := law.with_activeOrder
  exact LawfulWith.lawful (active := activeOrder s)
    ⟨is.machines, is.accounts, orders ▸ is.orders, is.books, orders ▸ is.only, is.comps, drives⟩

theorem setLoads_lawful_of_same (law : Lawful s) (orders : l.orders = s.loads.orders)
    (drives : (l.valveOpen, l.armTimer, l.settleTimer) = (s.loads.valveOpen, s.loads.armTimer, s.loads.settleTimer)) :
    Lawful (setLoads l s) := by
  simp only [Prod.mk.injEq] at drives
  obtain ⟨valve, arm, settle⟩ := drives
  refine setLoads_lawful law orders ?_
  rw [DrivesFollow, valve, arm, settle]
  exact law.with_activeOrder.drives

theorem Lawful.with_order (law : Lawful s) (active : activeOrder s = some (slot, o)) : LawfulWith (some (slot, o)) s :=
  active ▸ law.with_activeOrder

theorem activeOrder_of_loading (law : Lawful s) (loading : loadingOrder s = some (slot, o)) :
    activeOrder s = some (slot, o) := by
  obtain ⟨listed, isLoading⟩ := tableFind_some loading
  exact (law.with_activeOrder.only _).1 ⟨listed, by rw [beq_iff_eq.1 isLoading]; rfl⟩

theorem LawfulWith.slot_lt (law : LawfulWith (some (slot, o)) s) : slot < Config.loadSlots := by
  have wf := law.orders
  rw [tableWf, Bool.and_eq_true, List.all_eq_true] at wf
  exact of_decide_eq_true (wf.2 _ ((law.only _).2 rfl).1)

/-- The active order is rewritten in its slot and stays under way, its compartment LOADING. -/
theorem order_rewritten_lawful (law : LawfulWith (some (slot, o)) s) (orders : l.orders = tableSet s.loads.orders slot p)
    (isActive : activeState p.state = true) (comp : p.compartment = o.compartment)
    (drives : DrivesFollow (some (slot, p)) l) : Lawful (setLoads l s) := by
  refine LawfulWith.lawful (active := some (slot, p))
    ⟨law.machines, law.accounts, ?_, law.books, ?_, fun c => (law.comps c).trans ?_, drives⟩
  · rw [setLoads_loads, orders]
    exact tableWf_set p law.slot_lt law.orders
  · rw [setLoads_loads, orders]
    exact law.only.write_active law.rising (by rintro _ ⟨⟩; rfl) isActive
  · simp [comp]

/-- The active order ends in its slot, and its compartment is IN_SERVICE again. -/
theorem order_ended_lawful (law : LawfulWith (some (slot, o)) s) (orders : l.orders = tableSet s.loads.orders slot p)
    (ended : activeState p.state = false) (drives : DrivesFollow none l) :
    Lawful (releaseCompartment o.compartment (setLoads l s)) := by
  refine LawfulWith.lawful (active := none) ⟨law.machines, law.accounts, ?_, fun c => ?_, ?_, fun c => ?_, drives⟩
  · rw [releaseCompartment, setComp_loads, setLoads_loads, orders]
    exact tableWf_set p law.slot_lt law.orders
  · rw [releaseCompartment, setComp_compartments, ByFour_get_set_cases]
    split
    · exact law.books o.compartment
    · exact law.books c
  · rw [releaseCompartment, setComp_loads, setLoads_loads, orders]
    exact law.only.write_ended law.rising (by rintro _ ⟨⟩; rfl) ended
  · refine iff_of_false ?_ (by simp)
    rw [releaseCompartment, setComp_compartments, ByFour_get_set_cases]
    split
    · nofun
    next other =>
      intro loading
      obtain ⟨_, ⟨⟩, same⟩ := (law.comps c).1 loading
      exact other same.symm

/-- A slot whose order is not under way, or a FREE one, takes an order that is not. -/
theorem setOrder_lawful_resting (law : Lawful s) (below : slot < Config.loadSlots)
    (before : ∀ u, tableGet s.loads.orders slot = some u → activeState u.state = false)
    (after : activeState p.state = false) : Lawful (setOrder slot p s) := by
  have is := law.with_activeOrder
  have orders := tableWf_set p below is.orders
  have only := is.only.write_resting is.rising before after
  exact LawfulWith.lawful (active := activeOrder s)
    ⟨is.machines, is.accounts, orders, is.books, only, is.comps, is.drives⟩

/-- An order keeps its state and its compartment. -/
theorem setOrder_lawful_of_same (law : Lawful s) (found : tableGet s.loads.orders slot = some o)
    (state : p.state = o.state) (comp : p.compartment = o.compartment) : Lawful (setOrder slot p s) := by
  have is := law.with_activeOrder
  cases underWay : activeState o.state with
  | true =>
    have active := is.only.of_tableGet found underWay
    have drives := is.drives
    rw [active, drivesFollow_some, ← state] at drives
    exact order_rewritten_lawful (law.with_order active) rfl (state ▸ underWay) comp (drivesFollow_some.2 drives)
  | false =>
    refine setOrder_lawful_resting law (lt_of_tableGet is.orders found) (fun u foundU => ?_) (state ▸ underWay)
    obtain rfl : o = u := Option.some.inj (found.symm.trans foundU)
    exact underWay

/-- R173: the order SETTLING, the valve closed, the settle timer alone runs. -/
theorem closeInlet_lawful (law : Lawful s) (active : activeOrder s = some (slot, o)) (cause : EndCause) :
    Lawful (closeInlet slot o cause s) :=
  order_rewritten_lawful (law.with_order active) rfl rfl rfl (drivesFollow_some.2 ⟨nofun, nofun, fun _ => rfl⟩)

@[simp] theorem endLoading_lawful (law : Lawful s) (cause : EndCause) : Lawful (endLoading cause s) := by
  unfold endLoading
  split
  · exact law
  next loading => exact closeInlet_lawful law (activeOrder_of_loading law loading) cause

@[simp] theorem setInletLock_lawful (law : Lawful s) : Lawful (setInletLock s) := setLoads_lawful_of_same law rfl rfl

@[simp] theorem meterStop_lawful (law : Lawful s) (m : MeterId) : Lawful (meterStop m s) := by
  unfold meterStop
  split <;> simp [law]

/-- R170: an ARMED order, whose settle timer does not run, becomes LOADING. -/
@[simp] theorem tryOpenInlet_lawful (law : Lawful s) : Lawful (tryOpenInlet s) := by
  unfold tryOpenInlet
  split
  · exact law
  next slot o active =>
    split
    next opens =>
      obtain ⟨armed, -⟩ := opens
      have is := law.with_order active
      obtain ⟨-, -, settle⟩ := drivesFollow_some.1 is.drives
      rw [openChannel_lawful]
      refine order_rewritten_lawful (p := { o with state := .loading }) is rfl rfl rfl ?_
      refine drivesFollow_some.2 ⟨fun _ => rfl, fun _ => .inr rfl, fun runs => ?_⟩
      exact absurd (armed.symm.trans (settle runs)) nofun
    · exact law

/-- R174: a SETTLING order, whose valve is closed and whose arm timer does not run, is COMPLETE. -/
theorem completeOrder_lawful (law : Lawful s) (active : activeOrder s = some (slot, o)) (settling : o.state = .settling)
    (after : Option Nat) : Lawful (completeOrder slot o after s) := by
  have is := law.with_order active
  obtain ⟨valve, arm, -⟩ := drivesFollow_some.1 is.drives
  refine (raise_lawful _ _).2 (compareRestock_lawful (order_ended_lawful is rfl rfl (drivesFollow_none.2 ⟨?_, ?_, rfl⟩)) _)
  · simpa [settling] using valve
  · simpa [settling] using arm

/-- R171, R176: an ARMED or LOADING order, whose settle timer does not run, is CANCELLED. -/
theorem cancelOrder_lawful (law : Lawful s) (active : activeOrder s = some (slot, o))
    (before : o.state = .armed ∨ o.state = .loading) (cause : EndCause) : Lawful (cancelOrder slot o cause s) := by
  have is := law.with_order active
  obtain ⟨-, -, settle⟩ := drivesFollow_some.1 is.drives
  refine handGaugeToHost_lawful (order_ended_lawful is rfl rfl (drivesFollow_none.2 ⟨rfl, rfl, ?_⟩)) _
  rcases before with is | is <;> simpa [is] using settle

@[simp] theorem loadGaugeEnded_lawful (law : Lawful s) (net : Option Nat) : Lawful (loadGaugeEnded net s) := by
  unfold loadGaugeEnded
  split
  · exact law
  next slot o active =>
    have is := law.with_order active
    split
    next armed =>
      refine order_rewritten_lawful (p := { o with gaugeBefore := net }) is rfl (by rw [armed]; rfl) rfl ?_
      exact drivesFollow_some.2 (drivesFollow_some.1 is.drives :)
    next settling => exact completeOrder_lawful law active settling net
    · exact law

/-- R169: with no order under way, a slot's order becomes ARMED and its compartment LOADING. -/
theorem orderArmed_lawful (law : Lawful s) (inactive : activeOrder s = none) (found : tableGet s.loads.orders slot = some o) :
    Lawful (orderArmed slot o s) := by
  have is := inactive ▸ law.with_activeOrder
  obtain ⟨valve, -, -⟩ := drivesFollow_none.1 is.drives
  rw [orderArmed_eq rfl]
  generalize armedIs : ({ o with state := .armed, armed := some s.timebase.count } : LoadOrder) = armed
  have orders := tableWf_set armed (lt_of_tableGet is.orders found) is.orders
  have isArmed : armed.state = .armed := by rw [← armedIs]
  have comp : armed.compartment = o.compartment := by rw [← armedIs]
  have only := is.only.write_active is.rising (slot := slot) (o := armed) (by simp) (by rw [isArmed]; rfl)
  refine LawfulWith.lawful (active := some (slot, armed))
    ⟨is.machines, is.accounts, orders, fun c => ?_, only, fun c => ?_, drivesFollow_some.2 ?_⟩
  · rw [ByFour_get_set_cases]
    split
    · exact is.books o.compartment
    · exact is.books c
  · have notLoading := is.comps c
    rw [ByFour_get_set_cases]
    split
    next same => simp [same, comp]
    next other => simpa [comp, Ne.symm other] using notLoading
  · simp [valve, isArmed]

end

end Sys2Proof.Machine
end

section
/-! PROOFS. The law of tables, books and load orders under the commands of the machine and account tables and under
authorisation: every slot they write is one that held a record, or the lowest FREE one. -/

namespace Sys2Proof.Machine

/-! ### Replies -/

@[simp] theorem reply_lawful (st : Status) (payload : List Byte) (s : State) :
    Lawful (reply st payload s).1 ↔ Lawful s := Iff.rfl
@[simp] theorem okWith_lawful (payload : List Byte) (s : State) : Lawful (okWith payload s).1 ↔ Lawful s := Iff.rfl
@[simp] theorem answer_lawful (st : Status) (s : State) : Lawful (answer st s).1 ↔ Lawful s := Iff.rfl

/-- A reply chosen by a test. -/
@[simp] theorem ite_lawful {p : Prop} [Decidable p] (r q : Reply) :
    Lawful (if p then r else q).1 ↔ if p then Lawful r.1 else Lawful q.1 := by
  split <;> exact Iff.rfl

/-- The state beside the result of a check or a judgement. -/
theorem lawful_of_result {α : Type} {result : α × State} {x : α} {t : State} (kept : Lawful result.2)
    (is : result = (x, t)) : Lawful t := by
  rwa [is] at kept

section
variable {s : State} (law : Lawful s)
include law

/-! ### Machine Table -/

theorem doMachineInstall_lawful (f : MachineFields) : Lawful (doMachineInstall f s).1 := by
  unfold doMachineInstall
  cases free : lowestFree s.machines Config.machineSlots with
  | none => simp [law]
  | some slot =>
    have written := writeMachine_lawful law (lowestFree_spec free).1 (newMachine f)
    have indexed := indexTank_lawful (indexTank_lawful written slot .fuel f.fuel) slot .fluid f.fluid
    simp [law, addReference, indexed]

theorem placeAmended_lawful {slot : Nat} (below : slot < Config.machineSlots) (old new : MachineRecord) :
    Lawful (placeAmended slot old new s) := by
  have written := writeMachine_lawful law below new
  have moved := moveReference_lawful written (some old.account) (some new.account)
  have unindexed := unindexTank_lawful (unindexTank_lawful moved slot old.fuel) slot old.fluid
  exact indexTank_lawful (indexTank_lawful unindexed slot .fuel new.fuel) slot .fluid new.fluid

theorem doMachineAmendChange_lawful (slot : Nat) (f : MachineFields) : Lawful (doMachineAmendChange slot f s).1 := by
  unfold doMachineAmendChange
  cases found : machineAt slot s with
  | none => simp [law]
  | some m =>
    cases looked : verifyMachine slot m s with
    | mk agrees t =>
      have kept := lawful_of_result (verifyMachine_lawful law found) looked
      have placed := placeAmended_lawful kept (machineSlot_lt law found) m (amendedMachine f m)
      cases agrees <;> simp [law, looked, kept, placed]

theorem doMachineAmendRewrite_lawful (slot : Nat) (f : MachineFields) (used overrun fills : Nat) :
    Lawful (doMachineAmendRewrite slot f used overrun fills s).1 := by
  unfold doMachineAmendRewrite
  cases found : machineAt slot s with
  | none => simp [law]
  | some m => simp [law, placeAmended_lawful law (machineSlot_lt law found)]

theorem doMachineRead_lawful (slot : Nat) : Lawful (doMachineRead slot s).1 := by
  unfold doMachineRead
  cases found : machineAt slot s with
  | none => simp [law]
  | some m => simp [law, verifyMachine_lawful law found]

theorem doMachineFind_lawful (key : MachineKey) : Lawful (doMachineFind key s).1 := by
  cases key with
  | tag tag =>
    simp only [doMachineFind, ite_lawful]
    split
    · exact law
    · split
      · exact law
      · split
        · exact law
        next found => exact verifyMachine_lawful law found
  | number number =>
    simp only [doMachineFind, ite_lawful]
    split
    · exact law
    · split
      · exact law
      next listed =>
        exact verifyMachine_lawful law
          (tableGet_of_mem (Bool.and_eq_true_iff.1 law.with_activeOrder.machines).1 (tableFind_some listed).1)

theorem changeState_lawful (origin target : MachineState) (slot : Nat) :
    Lawful (changeState origin target slot s).1 := by
  unfold changeState
  cases found : machineAt slot s with
  | none => simp [law]
  | some m =>
    cases looked : verifyMachine slot m s with
    | mk agrees t =>
      have kept := lawful_of_result (verifyMachine_lawful law found) looked
      have written := writeMachine_lawful kept (machineSlot_lt law found) { m with state := target }
      cases agrees <;> simp [law, looked, kept, written]

theorem doMachineSuspend_lawful (slot : Nat) : Lawful (doMachineSuspend slot s).1 := changeState_lawful law ..

theorem doMachineReinstate_lawful (slot : Nat) : Lawful (doMachineReinstate slot s).1 := changeState_lawful law ..

theorem doMachineRetire_lawful (slot : Nat) : Lawful (doMachineRetire slot s).1 := by
  unfold doMachineRetire
  cases found : machineAt slot s with
  | none => simp [law]
  | some m => simp [law, writeMachine_lawful law (machineSlot_lt law found)]

theorem doTagQuery_lawful (tag : Nat) : Lawful (doTagQuery tag s).1 := by
  simp [doTagQuery, law]

theorem doRangeWrite_lawful (entry : Nat) (e : RangeEntry) : Lawful (doRangeWrite entry e s).1 := by
  unfold doRangeWrite
  cases s.ranges[entry]? with
  | none => exact law
  | some old =>
    have written : Lawful { s with ranges := s.ranges.setIfInBounds entry e } := law
    simp [law, moveReference_lawful written]

theorem doRangeRead_lawful (entry : Nat) : Lawful (doRangeRead entry s).1 := by
  unfold doRangeRead
  cases s.ranges[entry]? <;> exact law

theorem doDefaultPolicySet_lawful (policy : Policy) : Lawful (doDefaultPolicySet policy s).1 := by
  cases policy <;> exact law

/-! ### Accounts and prices -/

theorem doAccountOpen_lawful (number tier limit : Nat) : Lawful (doAccountOpen number tier limit s).1 := by
  unfold doAccountOpen
  cases tierOf tier with
  | none => exact law
  | some t =>
    cases free : lowestFree s.accounts Config.accountSlots with
    | none => simp [law]
    | some slot => simp [law, writeAccount_lawful law (lowestFree_spec free).1]

/-- A command that acts on a trusted record. -/
theorem withTrusted_lawful {slot : Nat} {a : AccountRecord} {act : State → Reply} (found : accountAt slot s = some a)
    (acts : ∀ {t}, Lawful t → Lawful (act t).1) : Lawful (withTrusted slot a act s).1 := by
  unfold withTrusted
  cases looked : verifyAccount slot a s with
  | mk agrees t =>
    have kept := lawful_of_result (verifyAccount_lawful law found) looked
    cases agrees <;> simp [law, kept, acts]

theorem doAccountAmendChange_lawful (slot number tier limit : Nat) :
    Lawful (doAccountAmendChange slot number tier limit s).1 := by
  unfold doAccountAmendChange
  cases tierOf tier with
  | none => exact law
  | some t =>
    cases found : accountAt slot s with
    | none => simp [law]
    | some a =>
      have acts := withTrusted_lawful law found (act := fun s =>
        if accountNumberHeldElsewhere (some slot) number s then answer .duplicateNumber s
        else answer .ok (writeAccount slot { a with number := number, tier := t, limit := limit } s))
        fun kept => by simp [kept, writeAccount_lawful kept (accountSlot_lt law found)]
      simp [law, acts]

theorem doAccountAmendRewrite_lawful (slot number tier limit balance period : Nat) (current : PeriodFigures) :
    Lawful (doAccountAmendRewrite slot number tier limit balance period current s).1 := by
  unfold doAccountAmendRewrite
  cases tierOf tier with
  | none => exact law
  | some t =>
    cases found : accountAt slot s with
    | none => simp [law]
    | some a => simp [law, writeAccount_lawful law (accountSlot_lt law found)]

theorem doAccountRead_lawful (key : AccountKey) : Lawful (doAccountRead key s).1 := by
  unfold doAccountRead
  cases accountKeySlot key s with
  | error st => exact law
  | ok slot =>
    cases found : accountAt slot s with
    | none => simpa [found] using law
    | some a => simpa [found] using verifyAccount_lawful law found

theorem changeAccountState_lawful (origin target : AccountState) (slot : Nat) :
    Lawful (changeAccountState origin target slot s).1 := by
  unfold changeAccountState
  cases found : accountAt slot s with
  | none => simp [law]
  | some a =>
    cases looked : verifyAccount slot a s with
    | mk agrees t =>
      have kept := lawful_of_result (verifyAccount_lawful law found) looked
      have written := writeAccount_lawful kept (accountSlot_lt law found) { a with state := target }
      cases agrees <;> simp [law, looked, kept, written]

theorem doAccountStop_lawful (slot : Nat) : Lawful (doAccountStop slot s).1 := changeAccountState_lawful law ..

theorem doAccountResume_lawful (slot : Nat) : Lawful (doAccountResume slot s).1 := changeAccountState_lawful law ..

theorem doAccountRetire_lawful (slot : Nat) : Lawful (doAccountRetire slot s).1 := by
  have erased := accounts_lawful law (tableWf_erase slot law.with_activeOrder.accounts)
  unfold doAccountRetire
  cases accountAt slot s <;> simp [law, erased]

theorem doSettle_lawful (slot amount : Nat) : Lawful (doSettle slot amount s).1 := by
  unfold doSettle
  split
  · exact law
  · split
    · exact law
    next found =>
      exact withTrusted_lawful law found fun kept => by
        simp [kept, writeAccount_lawful kept (accountSlot_lt law found)]

theorem doPeriodClose_lawful (slot : Nat) : Lawful (doPeriodClose slot s).1 := by
  unfold doPeriodClose
  split
  · exact law
  · split
    · exact law
    next a found =>
      exact withTrusted_lawful law found fun kept => by
        have written := writeAccount_lawful kept (accountSlot_lt law found)
        cases statementUnread a <;> simp [kept, written]

theorem doStatementRead_lawful (slot : Nat) : Lawful (doStatementRead slot s).1 := by
  unfold doStatementRead
  cases found : accountAt slot s with
  | none => simp [law]
  | some a => simp [law, verifyAccount_lawful law found]

theorem doStatementRelease_lawful (slot period : Nat) : Lawful (doStatementRelease slot period s).1 := by
  unfold doStatementRelease
  split
  · exact law
  · split
    · exact law
    next a found =>
      exact withTrusted_lawful law found fun kept => by
        have written := writeAccount_lawful kept (accountSlot_lt law found)
        cases a.previous <;> simp [kept, written]

theorem doPriceWrite_lawful (tier : Nat) (grade : Grade) (price : Nat) : Lawful (doPriceWrite tier grade price s).1 := by
  unfold doPriceWrite
  cases tierOf tier with
  | none => exact law
  | some t => dsimp only; split <;> exact law

/-! ### Authorisation -/

theorem checkRecord_lawful {slot : Nat} {m : MachineRecord} (found : machineAt slot s = some m) :
    Lawful (checkRecord slot m s).2 := by
  unfold checkRecord
  split
  · exact law
  · cases looked : verifyMachine slot m s with
    | mk agrees u =>
      have kept := lawful_of_result (verifyMachine_lawful law found) looked
      cases agrees with
      | false => exact kept
      | true => cases m.state <;> exact kept

theorem checkAccount_lawful (slot : Nat) : Lawful (checkAccount slot s).2 := by
  unfold checkAccount
  split
  · exact law
  next a found =>
    cases looked : verifyAccount slot a s with
    | mk agrees u =>
      have kept := lawful_of_result (verifyAccount_lawful law found) looked
      cases agrees <;> exact kept

theorem judgeTerms_lawful (id : HoseId) (t : Terms) : Lawful (judgeTerms id t s).2 := by
  unfold judgeTerms
  cases checked : checkAccount t.account s with
  | mk passes u =>
    have kept := lawful_of_result (checkAccount_lawful law t.account) checked
    cases passes with
    | false => exact kept
    | true =>
      dsimp only
      split
      · exact kept
      · split <;> exact kept

theorem judgeTank_lawful (id : HoseId) (manual : Bool) (t : Terms) (tank : TankKind) (m : MachineRecord) :
    Lawful (judgeTank id manual t tank m s).2 := by
  unfold judgeTank
  split
  · exact law
  · split
    · exact law
    · split
      · cases checked : checkAccount t.account s with
        | mk passes u => cases passes <;> exact lawful_of_result (checkAccount_lawful law t.account) checked
      · exact judgeTerms_lawful law id t

theorem judgeTag_lawful (id : HoseId) (tag : Nat) : Lawful (judgeTag id tag s).2 := by
  unfold judgeTag
  cases hoseCheck id s with
  | some r => exact law
  | none =>
    cases resolve tag s with
    | machine e =>
      dsimp only
      split
      · exact law
      next m found =>
        cases checked : checkRecord e.slot m s with
        | mk r u =>
          have kept := lawful_of_result (checkRecord_lawful law found) checked
          cases r with
          | some r => exact kept
          | none =>
            dsimp only
            split
            · exact kept
            · exact judgeTank_lawful kept ..
    | range i e =>
      dsimp only
      split
      · exact law
      · exact law
      · split
        · exact law
        · exact judgeTerms_lawful law ..
    | default p => cases p <;> exact law

theorem judgeManual_lawful (id : HoseId) (number : Nat) (tank : TankKind) (preset : Option Nat) :
    Lawful (judgeManual id number tank preset s).2 := by
  unfold judgeManual
  cases hoseCheck id s with
  | some r => exact law
  | none =>
    dsimp only
    split
    · exact law
    next slot m listed =>
      have found : machineAt slot s = some m :=
        tableGet_of_mem (Bool.and_eq_true_iff.1 law.with_activeOrder.machines).1 (tableFind_some listed).1
      split
      · exact law
      · cases checked : checkRecord slot m s with
        | mk r u =>
          have kept := lawful_of_result (checkRecord_lawful law found) checked
          cases r with
          | some r => exact kept
          | none => exact judgeTank_lawful kept ..

theorem holdMachine_lawful (id : HoseId) (t : Terms) (hold : Nat) : Lawful (holdMachine id t hold s) := by
  unfold holdMachine
  split
  · exact law
  · split
    · exact law
    next found => exact writeMachine_lawful law (machineSlot_lt law found) _

theorem holdCompartment_lawful (c : CompId) (hold : Nat) : Lawful (holdCompartment c hold s) := by
  unfold holdCompartment
  apply abortHostGauge_lawful
  apply compareRestock_lawful
  exact setComp_lawful_of_same law rfl

theorem holdAccount_lawful (slot moneyHold : Nat) : Lawful (holdAccount slot moneyHold s) := changeAccount_lawful law ..

theorem openHoseChannel_lawful (m : MeterId) : Lawful (openHoseChannel m s) := law

theorem enterReady_lawful (id : HoseId) (x : Session) : Lawful (enterReady id x s) := law

@[simp] theorem openSession_lawful (id : HoseId) (t : Terms) (c : Choice) : Lawful (openSession id t c s) := by
  unfold openSession
  generalize newSession id t c (snapshot t c s) s = x
  have account := holdAccount_lawful (holdMachine_lawful law id t c.hold) t.account x.moneyHold
  exact enterReady_lawful (openHoseChannel_lawful (holdCompartment_lawful account c.comp c.hold) id.meter) id x

@[simp] theorem enterReferred_lawful (id : HoseId) (w : Waiting) : Lawful (enterReferred id w s) := by
  simpa [enterReferred] using law

@[simp] theorem authoriseTag_lawful (id : HoseId) (tag : Nat) : Lawful (authoriseTag id tag s) := by
  unfold authoriseTag
  cases judged : judgeTag id tag s with
  | mk v u =>
    have kept := lawful_of_result (judgeTag_lawful law id tag) judged
    cases v <;> simp [kept]

theorem doAuthoriseManual_lawful (hose number : Nat) (tank : TankKind) (preset : Option Nat) :
    Lawful (doAuthoriseManual hose number tank preset s).1 := by
  unfold doAuthoriseManual
  cases hoseOf hose with
  | none => exact law
  | some id =>
    cases judged : judgeManual id number tank preset s with
    | mk v u =>
      have kept := lawful_of_result (judgeManual_lawful law id number tank preset) judged
      cases v <;> simp [judged, law, kept, authorised]

theorem doReferReplyAccept_lawful (hose account : Nat) (grades : GradeSet) (limit : Nat) :
    Lawful (doReferReplyAccept hose account grades limit s).1 := by
  unfold doReferReplyAccept
  cases hoseOf hose with
  | none => exact law
  | some id =>
    simp only [ite_lawful]
    cases checked : checkAccount account s with
    | mk passes u =>
      have kept := lawful_of_result (checkAccount_lawful law account) checked
      cases passes with
      | false => simp [law, kept]
      | true =>
        dsimp only
        cases accountAt account u with
        | none => simp [law, kept]
        | some a =>
          dsimp only
          generalize replyTerms _ account grades limit = t
          cases judgeReply id t a u <;> simp [authorised, law, kept]

theorem doReferReplyRefuse_lawful (hose : Nat) : Lawful (doReferReplyRefuse hose s).1 := by
  unfold doReferReplyRefuse
  cases hoseOf hose <;> simp [law]

theorem doReferReplyRecheck_lawful (hose : Nat) : Lawful (doReferReplyRecheck hose s).1 := by
  unfold doReferReplyRecheck
  cases hoseOf hose with
  | none => exact law
  | some id =>
    cases judged : judgeTag id (recheckTag id s) s with
    | mk v u =>
      have kept := lawful_of_result (judgeTag_lawful law id (recheckTag id s)) judged
      cases v <;> simp [judged, law, kept]

end

end Sys2Proof.Machine
end

section
/-! PROOFS. The law of tables, books and load orders under compartments, fault banks, hoses, load orders and reader ports. -/

namespace Sys2Proof.Machine

section
variable {s : State} (law : Lawful s)
include law

/-! ### Compartments and probes -/

@[simp] theorem gaugeEnded_lawful (c : CompId) (origin : GaugeOrigin) (net : Option Nat) :
    Lawful (gaugeEnded c origin net s) := by
  cases origin <;> simp [gaugeEnded, law]

theorem writeGauge_lawful (c : CompId) (g : GaugeResult) : Lawful (writeGauge c g s) := setComp_lawful_of_same law rfl

theorem failGauge_lawful (c : CompId) (g : Gauge) (detail : Nat) : Lawful (failGauge c g detail s) := by
  simp [failGauge, writeGauge_lawful law]

theorem completeGauge_lawful (c : CompId) (g : Gauge) (settled : Bool) : Lawful (completeGauge c g settled s) := by
  cases settled <;> simp [completeGauge, writeGauge_lawful law]

theorem goodSample_lawful (c : CompId) (g : Gauge) (r : RawSample) : Lawful (goodSample c g r s) := by
  unfold goodSample
  dsimp only
  split
  · exact completeGauge_lawful law ..
  · split
    · exact completeGauge_lawful law ..
    · exact setComp_lawful_of_same law rfl

theorem takeSample_lawful (c : CompId) (r : RawSample) : Lawful (takeSample c r s) := by
  have sampled := setComp_lawful_of_same law (c := c) (k := { s.compartments.get c with sample := r }) rfl
  unfold takeSample
  dsimp only
  split
  · exact sampled
  · cases sampleCondition r with
    | good => exact goodSample_lawful sampled ..
    | levelFault | levelRange | tempFault => exact failGauge_lawful sampled ..

theorem sampleAll_lawful (r : ByFour RawSample) : Lawful (sampleAll r s) :=
  tryOpenInlet_lawful (takeSample_lawful (takeSample_lawful (takeSample_lawful (takeSample_lawful law ..) ..) ..) ..)

theorem doCompartmentSetup_lawful (comp : Nat) (grade : Option Grade) (capacity threshold : Nat) :
    Lawful (doCompartmentSetup comp grade capacity threshold s).1 := by
  unfold doCompartmentSetup
  cases fourOf comp with
  | none => exact law
  | some c =>
    have set := compareRestock_lawful (setComp_lawful_of_same law (c := c) (k := { s.compartments.get c with
      grade := grade, capacity := capacity, threshold := threshold }) rfl) c
    simp [law, set]

/-- A compartment that is not LOADING goes in or out of service. -/
theorem setComp_lawful_in_service {c : CompId} {st : CompState} (before : (s.compartments.get c).state ≠ .loading)
    (after : st ≠ .loading) : Lawful (setComp c { s.compartments.get c with state := st } s) :=
  setComp_lawful law (law.balanced c :) (iff_of_false after before)

theorem doCompartmentService_lawful (comp : Nat) (target : ServiceTarget) :
    Lawful (doCompartmentService comp target s).1 := by
  unfold doCompartmentService
  cases fourOf comp with
  | none => exact law
  | some c =>
    simp only [ite_lawful]
    split
    · exact law
    next before =>
      cases target with
      | inService => exact setComp_lawful_in_service law before (by decide)
      | outOfService =>
        simp only [ite_lawful]
        split
        · exact law
        · exact setComp_lawful_in_service law before (by decide)

/-- R68: a restated book is its base, both totals 0. -/
theorem doRestate_lawful (comp : Nat) (source : RestateSource) : Lawful (doRestate comp source s).1 := by
  unfold doRestate
  cases fourOf comp with
  | none => exact law
  | some c =>
    simp only [ite_lawful]
    cases restateValue (s.compartments.get c) source with
    | error st => simp [law]
    | ok v =>
      have restated := compareRestock_lawful (setComp_lawful law (c := c) (k := { s.compartments.get c with
        book := v, base := v, loaded := 0, dispensed := 0 }) (by simp [Balanced]) Iff.rfl) c
      simp [law, restated]

theorem doCompartmentRead_lawful (comp : Nat) : Lawful (doCompartmentRead comp s).1 := by
  unfold doCompartmentRead
  cases fourOf comp <;> exact law

theorem doStrapWrite_lawful (comp : Nat) (points : List StrapPoint) : Lawful (doStrapWrite comp points s).1 := by
  unfold doStrapWrite
  cases fourOf comp with
  | none => exact law
  | some c => simp [law, setComp_lawful_of_same]

theorem doStrapRead_lawful (comp : Nat) : Lawful (doStrapRead comp s).1 := by
  unfold doStrapRead
  cases fourOf comp <;> exact law

theorem doGauge_lawful (comp : Nat) : Lawful (doGauge comp s).1 := by
  unfold doGauge
  cases fourOf comp with
  | none => exact law
  | some c => simp [law, setComp_lawful_of_same]

/-! ### Fault banks and notices -/

theorem releaseHose_lawful (id : HoseId) : Lawful (releaseHose id s) := by
  simp [releaseHose, law, apply_ite Lawful]

theorem releaseInlet_lawful : Lawful (releaseInlet s) := by
  have unlocked : Lawful (setLoads { s.loads with lock := false } s) := setLoads_lawful_of_same law rfl rfl
  simp [releaseInlet, law, unlocked, apply_ite Lawful]

theorem releaseBank_lawful (i : BankId) : Lawful (releaseBank i s) := by
  cases i with
  | meter m => cases m <;> simp [releaseBank, meterHose, releaseHose_lawful law, releaseInlet_lawful law]
  | hose id => exact releaseHose_lawful (s := setHose id { s.hoses.get id with leakLatch := false } s) law id
  | inlet => exact releaseInlet_lawful law
  | reader | gauge | table => exact law

theorem doFaultRead_lawful (bank : Nat) : Lawful (doFaultRead bank s).1 := by
  unfold doFaultRead
  cases bankOf bank <;> exact law

theorem doFaultControl_lawful (bank enable : Nat) : Lawful (doFaultControl bank enable s).1 := by
  unfold doFaultControl
  cases bankOf bank <;> simp [law]

theorem doFaultClear_lawful (bank : Nat) : Lawful (doFaultClear bank s).1 := by
  unfold doFaultClear
  cases bankOf bank with
  | none => exact law
  | some i => exact releaseBank_lawful (s := dropNotice (.fault i) (emptyBank i s)) law i

theorem doNoticeNext_lawful : Lawful (doNoticeNext s).1 := by
  unfold doNoticeNext
  cases nextNotice s.notices <;> exact law

theorem doNoticeMask_lawful (mask : Nat) : Lawful (doNoticeMask mask s).1 := by
  unfold doNoticeMask
  split <;> exact law

/-! ### Hoses -/

theorem doHoseSetup_lawful (hose : Nat) (f : HoseSetupFields) : Lawful (doHoseSetup hose f s).1 := by
  unfold doHoseSetup
  cases hoseOf hose with
  | none => exact law
  | some id => cases formed : setupOf id f <;> simp [formed, law]

theorem doHoseRead_lawful (hose : Nat) : Lawful (doHoseRead hose s).1 := by
  unfold doHoseRead
  cases hoseOf hose <;> exact law

theorem doHoseService_lawful (hose : Nat) (target : ServiceTarget) : Lawful (doHoseService hose target s).1 := by
  unfold doHoseService
  cases hoseOf hose <;> cases target <;> simp [law]

theorem doRewind_lawful (hose : Nat) : Lawful (doRewind hose s).1 := by
  unfold doRewind
  cases hoseOf hose <;> simp [law]

theorem rewindExpires_lawful (id : HoseId) : Lawful (rewindExpires id s) := by
  simp [rewindExpires, law, apply_ite Lawful]

@[simp] theorem takeLineTemp_lawful (id : HoseId) (t : Int) : Lawful (takeLineTemp id t s) := by
  unfold takeLineTemp
  dsimp only
  split <;> exact law

/-! ### Load orders -/

theorem doLoadCreate_lawful (comp : Nat) (grade : Grade) (expected : Nat) (docket : List Byte) :
    Lawful (doLoadCreate comp grade expected docket s).1 := by
  unfold doLoadCreate
  cases fourOf comp with
  | none => exact law
  | some c =>
    cases free : lowestFree s.loads.orders Config.loadSlots with
    | none => simp [law]
    | some slot =>
      obtain ⟨below, empty⟩ := lowestFree_spec free
      have placed := setOrder_lawful_resting law (p := newOrder c grade expected docket (siteTime s)) below
        (by simp [empty]) rfl
      simp [law, placed]

theorem startBeforeGauge_lawful (c : CompId) : Lawful (startBeforeGauge c s) := by
  unfold startBeforeGauge
  split
  · exact setLoads_lawful_of_same law rfl rfl
  · exact startLoadGauge_lawful law c

theorem doLoadArm_lawful (slot : Nat) : Lawful (doLoadArm slot s).1 := by
  unfold doLoadArm
  cases found : tableGet s.loads.orders slot with
  | none => simp [law]
  | some o =>
    cases active : activeOrder s with
    | some p => simp [law]
    | none =>
      have armed : Lawful (tryOpenInlet (startBeforeGauge o.compartment (armOrder slot o (loadCompartment o s)))) :=
        tryOpenInlet_lawful (startBeforeGauge_lawful (orderArmed_lawful law active found) _)
      simp [law, armed]

theorem doLoadCancel_lawful (slot : Nat) : Lawful (doLoadCancel slot s).1 := by
  unfold doLoadCancel
  split
  · exact law
  · split
    · exact law
    next o found =>
      have is := law.with_activeOrder
      split
      next planned =>
        refine setOrder_lawful_resting law (lt_of_tableGet is.orders found) (fun u foundU => ?_) rfl
        obtain rfl : o = u := Option.some.inj (found.symm.trans foundU)
        rw [planned]
        rfl
      next armed =>
        exact cancelOrder_lawful law (is.only.of_tableGet found (by rw [armed]; rfl)) (.inl armed) .hostAbort
      · exact law

theorem doLoadAbort_lawful (slot : Nat) : Lawful (doLoadAbort slot s).1 := by
  unfold doLoadAbort
  split
  · exact law
  · split
    · exact law
    next o found =>
      split
      next loading =>
        exact closeInlet_lawful law (law.with_activeOrder.only.of_tableGet found (by rw [loading]; rfl)) .hostAbort
      · exact law

theorem doLoadRead_lawful (slot : Nat) : Lawful (doLoadRead slot s).1 := by
  unfold doLoadRead
  cases tableGet s.loads.orders slot <;> simp [law]

theorem doLoadRetire_lawful (slot : Nat) : Lawful (doLoadRetire slot s).1 := by
  unfold doLoadRetire
  split
  · exact law
  · split
    · exact law
    next o found =>
      split
      next ended =>
        have is := law.with_activeOrder
        have erased := tableWf_erase slot is.orders
        have only := is.only.erase_resting is.rising (slot := slot) fun u foundU => by
          obtain rfl : o = u := Option.some.inj (found.symm.trans foundU)
          rcases ended with ended | ended <;> rw [ended] <;> rfl
        exact LawfulWith.lawful (active := activeOrder s)
          ⟨is.machines, is.accounts, erased, is.books, only, is.comps, is.drives⟩
      · exact law

theorem doInletSetup_lawful (idle arm settle ullage : Nat) : Lawful (doInletSetup idle arm settle ullage s).1 := by
  simp [doInletSetup, law, setLoads_lawful_of_same]

theorem highLevel_lawful (c : CompId) : Lawful (highLevel c s) := by
  unfold highLevel
  split
  · exact law
  next loading =>
    simp [law, closeInlet_lawful law (activeOrder_of_loading law loading), apply_ite Lawful]

/-- R171: the arm timer runs while an order is ARMED or LOADING. -/
theorem armExpires_lawful (runs : s.loads.armTimer.isSome = true) : Lawful (armExpires s) := by
  unfold armExpires
  split
  · exact law
  next slot o active =>
    obtain ⟨-, arm, -⟩ := drivesFollow_some.1 (law.with_order active).drives
    rw [raise_lawful]
    exact cancelOrder_lawful law active (arm runs) .armTimeout

/-- R174: the settle timer runs while an order is SETTLING. -/
theorem loadSettleExpires_lawful (runs : s.loads.settleTimer.isSome = true) : Lawful (loadSettleExpires s) := by
  unfold loadSettleExpires
  split
  · exact law
  next slot o active =>
    obtain ⟨valve, arm, settle⟩ := drivesFollow_some.1 (law.with_order active).drives
    have stopped : Lawful (setLoads { s.loads with settleTimer := none } s) :=
      setLoads_lawful law rfl (by rw [active]; exact drivesFollow_some.2 ⟨valve, arm, nofun⟩)
    dsimp only
    split
    · exact completeOrder_lawful stopped active (settle runs) none
    · exact startLoadGauge_lawful stopped o.compartment

/-! ### Reader ports -/

@[simp] theorem closeFrame_lawful (h : HoseId) (byBreak : Bool) (f : ReaderFrame) : Lawful (closeFrame h byBreak f s) := by
  unfold closeFrame damagedFrame soundFrame
  dsimp only
  split
  · simp [law, apply_ite Lawful]
  · split <;> exact law

theorem takeEntry_lawful (h : HoseId) (e : FifoEntry) : Lawful (takeEntry h e s) := by
  unfold takeEntry putFrame
  split
  · exact law
  · dsimp only
    split <;> simp [law, apply_ite Lawful]

theorem takeLineEvent_lawful (h : HoseId) (v : LineEvent) : Lawful (takeLineEvent h v s) := by
  unfold takeLineEvent
  cases (s.readers.get h).frame <;> cases v <;> simp [law]

theorem lineEvent_lawful (h : HoseId) (v : LineEvent) : Lawful (lineEvent h v s) := by
  unfold lineEvent
  dsimp only
  split
  · exact takeLineEvent_lawful law ..
  · exact law

theorem breakFound_lawful (h : HoseId) (returned : Bool) : Lawful (breakFound h returned s) := by
  simp [breakFound, law, lineEvent_lawful, apply_ite Lawful]

theorem gapFound_lawful (h : HoseId) : Lawful (gapFound h s) := by
  unfold gapFound
  dsimp only
  split <;> simp [law, lineEvent_lawful]

omit law in
/-- The events of an entry, taken one after the other. -/
theorem takeLineEvents_lawful (h : HoseId) (events : List LineEvent) :
    ∀ {s}, Lawful s → Lawful (events.foldl (fun s v => takeLineEvent h v s) s) := by
  induction events with
  | nil => exact fun law => law
  | cons v rest ih => exact fun law => ih (takeLineEvent_lawful law h v)

theorem takeFromFifo_lawful (h : HoseId) : Lawful (takeFromFifo h s) := by
  unfold takeFromFifo
  dsimp only
  split
  · exact law
  · split
    · exact law
    next rest _ =>
      exact takeLineEvents_lawful h _
        (takeEntry_lawful (s := setReader h { s.readers.get h with fifo := rest } s) law h _)

theorem silenceExpires_lawful (h : HoseId) : Lawful (silenceExpires h s) := by
  unfold silenceExpires becomeSilent
  split
  · exact law
  · dsimp only
    split <;> simp [law]

theorem graceExpires_lawful (h : HoseId) : Lawful (graceExpires h s) := by
  unfold graceExpires graceRunsOut
  split
  · exact law
  · split <;> simp [law]

theorem doReaderSetup_lawful (port baud minQuality grace : Nat) :
    Lawful (doReaderSetup port baud minQuality grace s).1 := by
  unfold doReaderSetup
  cases hoseOf port <;> simp [law]

theorem doReaderStatus_lawful (port : Nat) (clear : Bool) : Lawful (doReaderStatus port clear s).1 := by
  unfold doReaderStatus
  cases hoseOf port <;> cases clear <;> exact law

/-! ### Timebase -/

theorem doClockSet_lawful (count : Nat) : Lawful (doClockSet count s).1 := by
  simp [doClockSet, setCount, law, apply_ite Lawful]

theorem doRolloverSet_lawful (second : Nat) : Lawful (doRolloverSet second s).1 := by
  simp [doRolloverSet, law]

theorem poweredSecond_lawful : Lawful (poweredSecond s) := by
  simp [poweredSecond, countSecond, law, apply_ite Lawful]

theorem clockSecond_lawful : Lawful (clockSecond s) := by
  unfold clockSecond
  split <;> simp [poweredSecond_lawful law, countSecond, law]

end

end Sys2Proof.Machine
end

section
/-! PROOFS. The law of tables, books and load orders under sessions, proving, metering and the Metrology Store. -/

namespace Sys2Proof.Machine

section
variable {s : State} (law : Lawful s)
include law

/-! ### Sessions (Chapter 7) -/

@[simp] theorem setPaired_lawful (id : HoseId) (tag : Option Nat) : Lawful (setPaired id tag s) := law

@[simp] theorem pause_lawful (id : HoseId) (reason : PauseReason) : Lawful (pause id reason s) := law

@[simp] theorem enterProveHeld_lawful (id : HoseId) (flowEnd : FlowEnd) (atWindow : Bool) :
    Lawful (enterProveHeld id flowEnd atWindow s) := law

@[simp] theorem startDelivery_lawful (id : HoseId) : Lawful (startDelivery id s) := by
  unfold startDelivery
  dsimp only
  split
  · exact law
  · split <;> simp [law]

theorem startRun_lawful (id : HoseId) : Lawful (startRun id s) := by
  unfold startRun
  dsimp only
  split
  · exact law
  · split <;> simp [law]

theorem startAsserted_lawful (id : HoseId) : Lawful (startAsserted id s) := by
  unfold startAsserted
  dsimp only
  split
  · cases (s.hoses.get id).state <;> simp [law, startRun_lawful, apply_ite Lawful]
  · exact law

theorem startReleased_lawful (id : HoseId) : Lawful (startReleased id s) := by
  unfold startReleased
  cases (s.hoses.get id).state <;> simp [law]

@[simp] theorem startAuthorisation_lawful (id : HoseId) : Lawful (startAuthorisation id s) := by
  unfold startAuthorisation authorisePair
  split
  · exact law
  · cases (s.hoses.get id).state <;> simp [law]

theorem nozzleLifted_lawful (id : HoseId) : Lawful (nozzleLifted id s) :=
  startAuthorisation_lawful (setPaired_lawful (endRewind_lawful law ..) ..) id

theorem nozzleHung_lawful (id : HoseId) : Lawful (nozzleHung id s) := by
  unfold nozzleHung
  cases (s.hoses.get id).state <;> simp [law]

@[simp] theorem restHose_lawful (id : HoseId) : Lawful (restHose id s) := law

theorem estopHose_lawful (id : HoseId) : Lawful (estopHose id s) := by
  have rested := endRewind_lawful (restHose_lawful law id) id .interrupted
  unfold estopHose
  dsimp only
  cases ((endRewind id .interrupted (restHose id s)).hoses.get id).state <;> simp [rested, apply_ite Lawful]

theorem estopAsserted_lawful : Lawful (estopAsserted s) :=
  endLoading_lawful (estopHose_lawful (estopHose_lawful (estopHose_lawful law .h1) .h2) .h3) .emergency

theorem brakeHose_lawful (id : HoseId) : Lawful (brakeHose id s) := by
  simp [brakeHose, law, apply_ite Lawful]

theorem brakeReleased_lawful : Lawful (brakeReleased s) :=
  brakeHose_lawful (brakeHose_lawful (brakeHose_lawful law .h1) .h2) .h3

theorem takeTagEvent_lawful (id : HoseId) (v : TagEvent) : Lawful (takeTagEvent id v s) := by
  obtain ⟨events, is⟩ := takeTagEvent_eq id v s
  rw [is]
  exact law

@[simp] theorem pairByTag_lawful (id : HoseId) : Lawful (pairByTag id s) := by
  simp [pairByTag, law, apply_ite Lawful]

theorem tagPresentActs_lawful (id : HoseId) (tag : Nat) : Lawful (tagPresentActs id tag s) := by
  unfold tagPresentActs
  dsimp only
  cases (s.hoses.get id).state <;> simp [law, apply_ite Lawful]

theorem tagLostActs_lawful (id : HoseId) (tag : Nat) : Lawful (tagLostActs id tag s) := by
  unfold tagLostActs
  dsimp only
  cases (s.hoses.get id).state <;> simp [law, apply_ite Lawful]

theorem tagChangedActs_lawful (id : HoseId) : Lawful (tagChangedActs id s) := by
  unfold tagChangedActs
  dsimp only
  cases (s.hoses.get id).state <;> simp [law, apply_ite Lawful]

@[simp] theorem reportValve_lawful (id : HoseId) : Lawful (reportValve id s) := (report_lawful ..).2 law

@[simp] theorem settleRun_lawful (id : HoseId) : Lawful (settleRun id s) := law

theorem settleExpires_lawful (id : HoseId) : Lawful (settleExpires id s) := by
  have faulted := closeSession_lawful (stopFault_lawful (reportValve_lawful law id) id .fault) id none
  simp [settleExpires, law, faulted, apply_ite Lawful]

theorem proveSettleExpires_lawful (id : HoseId) : Lawful (proveSettleExpires id s) := by
  simp [proveSettleExpires, law, apply_ite Lawful]

theorem doHoseStop_lawful (hose : Nat) : Lawful (doHoseStop hose s).1 := by
  unfold doHoseStop
  cases hoseOf hose <;> simp [law]

theorem doCollect_lawful (hose number : Nat) : Lawful (doCollect hose number s).1 := by
  unfold doCollect
  cases hoseOf hose with
  | none => exact law
  | some id => cases session : (s.hoses.get id).session <;> simp [session, law]

theorem doSessionRead_lawful (hose : Nat) : Lawful (doSessionRead hose s).1 := by
  unfold doSessionRead
  cases hoseOf hose <;> exact law

/-! ### Metrology Store and proving (Chapters 8 and 9) -/

@[simp] theorem beginWrite_lawful (c : Instr) (change : StoreChange) : Lawful (beginWrite c change s).1 := law

theorem doMeterRead_lawful (meter : Nat) : Lawful (doMeterRead meter s).1 := by
  unfold doMeterRead
  cases fourOf meter <;> exact law

theorem doMetrologyRead_lawful (meter : Nat) : Lawful (doMetrologyRead meter s).1 := by
  unfold doMetrologyRead
  cases fourOf meter <;> exact law

theorem doMetrologyWrite_lawful (meter pulseVolume : Nat) (points : List LinPoint) :
    Lawful (doMetrologyWrite meter pulseVolume points s).1 := by
  unfold doMetrologyWrite
  cases fourOf meter <;> cases points <;> simp [law]

theorem doGradeCoefficientWrite_lawful (grade : Grade) (alpha : Nat) (fallback : Int) :
    Lawful (doGradeCoefficientWrite grade alpha fallback s).1 := by
  simp [doGradeCoefficientWrite, law]

@[simp] theorem enterProveReady_lawful (id : HoseId) (r : Run) : Lawful (enterProveReady id r s) := law

theorem doProveStart_lawful (hose flow nominal : Nat) : Lawful (doProveStart hose flow nominal s).1 := by
  unfold doProveStart
  cases hoseOf hose with
  | none => exact law
  | some id => cases source : provingSource id s <;> simp [source, law]

theorem doProveResult_lawful (hose observed : Nat) : Lawful (doProveResult hose observed s).1 := by
  unfold doProveResult
  cases hoseOf hose with
  | none => exact law
  | some id => cases run : (s.hoses.get id).run <;> simp [run, law]

theorem doProveAbort_lawful (hose : Nat) : Lawful (doProveAbort hose s).1 := by
  unfold doProveAbort
  cases hoseOf hose <;> simp [law]

theorem doProveRead_lawful (hose : Nat) : Lawful (doProveRead hose s).1 := by
  unfold doProveRead
  cases hoseOf hose <;> exact law

theorem storeWritten_lawful : Lawful (storeWritten s) := by
  unfold storeWritten
  split
  · exact law
  next w _ =>
    unfold applyWrite runUpdated
    rw [finish_lawful]
    cases w.change <;> simp [law]

/-! ### Pulsers (R136 to R138) -/

@[simp] theorem pulserFault_lawful (m : MeterId) (kind : ErrorKind) (detail : Nat) :
    Lawful (pulserFault m kind detail s) := by
  simp [pulserFault, law]

@[simp] theorem movePin_lawful (m : MeterId) (forward : Bool) : Lawful (movePin m forward s) := by
  unfold movePin
  dsimp only
  split <;> exact law

theorem moveBothPins_lawful (m : MeterId) : Lawful (moveBothPins m s) := law

theorem driftOne_lawful (m : MeterId) (forward : Bool) : Lawful (driftOne m forward s) := by
  simp [driftOne, driftPins, law, apply_ite Lawful]

theorem driftBoth_lawful (m : MeterId) : Lawful (driftBoth m s) := law

@[simp] theorem countForward_lawful (m : MeterId) (capture : Nat) : Lawful (countForward m capture s) := by
  simp [countForward, law, apply_ite Lawful]

@[simp] theorem countReverse_lawful (m : MeterId) : Lawful (countReverse m s) := law

theorem countIllegal_lawful (m : MeterId) : Lawful (countIllegal m s) := by
  simp [countIllegal, law, apply_ite Lawful]

theorem forwardPulse_lawful (m : MeterId) (capture : Nat) : Lawful (forwardPulse m capture s) := by
  simp [forwardPulse, law]

theorem reversePulse_lawful (m : MeterId) : Lawful (reversePulse m s) := movePin_lawful law m false

theorem quarterStep_lawful (m : MeterId) (forward : Bool) : Lawful (quarterStep m forward s) := by
  simp [quarterStep, law, apply_ite Lawful]

/-! ### The window of a channel (R139 to R147) -/

theorem reverseTest_lawful (m : MeterId) : Lawful (reverseTest m s) := by
  simp [reverseTest, law, apply_ite Lawful]

theorem probeTest_lawful (m : MeterId) (reading : Int) : Lawful (probeTest m reading s) := by
  simp [probeTest, law, apply_ite Lawful]

@[simp] theorem addUnattributed_lawful (m : MeterId) (net : Nat) : Lawful (addUnattributed m net s) := law

@[simp] theorem debitLastSource_lawful (id : HoseId) (net : Nat) : Lawful (debitLastSource id net s) := by
  unfold debitLastSource
  split <;> simp [law]

theorem creepTest_lawful (id : HoseId) (net : Nat) : Lawful (creepTest id net s) := by
  simp [creepTest, law, apply_ite Lawful]

theorem toSession_lawful (id : HoseId) (r : WindowResult) : Lawful (toSession id r s) := by
  unfold toSession
  dsimp only
  split
  · exact law
  next x _ =>
    exact debit_lawful (s := setHose id { s.hoses.get id with session := some (addToSession r x) } s) law ..

theorem toOrder_lawful (slot : Nat) (r : WindowResult) : Lawful (toOrder slot r s) := by
  unfold toOrder
  split
  · exact law
  next o found => exact credit_lawful (setOrder_lawful_of_same (p := addToOrder r o) law found rfl rfl) ..

theorem distribute_lawful (m : MeterId) (o : Owner) (r : WindowResult) : Lawful (distribute m o r s) := by
  cases o with
  | session id => exact toSession_lawful law id r
  | run id => exact law
  | load slot => exact toOrder_lawful law slot r
  | hoseNobody id => exact creepTest_lawful (debitLastSource_lawful (addUnattributed_lawful law m r.net) id r.net) id r.net
  | inletNobody => exact law

@[simp] theorem stageDuty_lawful (id : HoseId) (q setPoint : Nat) : Lawful (stageDuty id q setPoint s) := law

@[simp] theorem windowPassed_lawful (id : HoseId) : Lawful (windowPassed id s) := law

@[simp] theorem noFlowTest_lawful (id : HoseId) : Lawful (noFlowTest id s) := by
  simp [noFlowTest, law, apply_ite Lawful]

@[simp] theorem overspeedTest_lawful (id : HoseId) (q : Nat) : Lawful (overspeedTest id q s) := by
  simp [overspeedTest, law, apply_ite Lawful]

@[simp] theorem deliverResult_lawful (id : HoseId) (r : WindowResult) (x : Session) : Lawful (deliverResult id r x s) := by
  unfold deliverResult
  dsimp only
  split
  · exact law
  · split
    · exact overspeedTest_lawful (noFlowTest_lawful (s := setHose id _ s) law id) id r.q
    · exact law

theorem handToHose_lawful (id : HoseId) (r : WindowResult) : Lawful (handToHose id r s) := by
  unfold handToHose
  dsimp only
  split
  case h_1 | h_2 => split <;> simp [law]
  case h_3 => simp [law, apply_ite Lawful]
  case h_4 | h_5 => split <;> simp [law, apply_ite Lawful]
  case h_6 => exact law

theorem watchValve_lawful (r : WindowResult) : Lawful (watchValve r s) := by
  unfold watchValve
  split
  · split
    · exact setLoads_lawful_of_same ((report_lawful ..).2 law) (by simp) (by simp)
    · exact law
  · exact law

/-- R172: the first pulse ends the arm timer of the LOADING order. -/
theorem superviseFlow_lawful {slot : Nat} {o : LoadOrder} (loading : loadingOrder s = some (slot, o)) (n : Nat) :
    Lawful (superviseFlow slot o n s) := by
  unfold superviseFlow
  split
  · exact law
  · have is := law.with_order (activeOrder_of_loading law loading)
    have isLoading : o.state = .loading := beq_iff_eq.1 (tableFind_some loading).2
    refine order_rewritten_lawful is rfl (by simp [isLoading, activeState]) rfl (drivesFollow_some.2 ?_)
    obtain ⟨valve, -, settle⟩ := drivesFollow_some.1 is.drives
    exact ⟨valve, nofun, settle⟩

theorem ullageTest_lawful : Lawful (ullageTest s) := by
  unfold ullageTest
  split
  · exact law
  next loading =>
    split
    · exact closeInlet_lawful law (activeOrder_of_loading law loading) .ullage
    · exact law

theorem handToLoad_lawful (r : WindowResult) : Lawful (handToLoad r s) := by
  have watched := watchValve_lawful law r
  unfold handToLoad
  dsimp only
  split
  · exact watched
  next loading => exact ullageTest_lawful (superviseFlow_lawful watched loading r.n)

theorem channelWindow_lawful (m : MeterId) (reading : Int) : Lawful (channelWindow m reading s) := by
  have tested := reverseTest_lawful law m
  have distributed (closed : Channel) (o : Owner) (r : WindowResult) :
      Lawful (distribute m o r (setChannel m closed (probeTest m reading (reverseTest m s)))) :=
    distribute_lawful (s := setChannel m closed _) (probeTest_lawful tested m reading :) m o r
  cases m with
  | one | two | three => exact handToHose_lawful (distributed ..) ..
  | four => exact handToLoad_lawful (distributed ..) ..

theorem takeLineTemps_lawful (t : ByFour Int) : Lawful (takeLineTemps t s) :=
  (takeLineTemp_lawful (takeLineTemp_lawful (takeLineTemp_lawful law .h1 t.one) .h2 t.two) .h3 t.three :)

theorem windowExpires_lawful (t : ByFour Int) : Lawful (windowExpires t s) := by
  have taken := takeLineTemps_lawful (s := reachInstant (s.timebase.windowStart + s.timebase.window) s) law t
  have windows := channelWindow_lawful (channelWindow_lawful (channelWindow_lawful
    (channelWindow_lawful taken .one t.one) .two t.two) .three t.three) .four t.four
  exact tryOpenInlet_lawful (s := startWindow _) windows

end

end Sys2Proof.Machine
end

section
/-! PROOFS. The law of tables, books and load orders (R62, R166): resets and power, the forms of a row, every command, and
the statement. -/

namespace Sys2Proof.Machine

/-! ### Resets and power (R152, R157, R183) -/

theorem warmOrder_resting (time : Nat) (o : LoadOrder) : activeState (warmOrder time o).state = false := by
  cases state : o.state <;> simp [warmOrder, state, activeState]

section
variable {s : State} (law : Lawful s)
include law

theorem warmHose_lawful (id : HoseId) : Lawful (warmHose id s) := by
  have rested := stopRewind_lawful (restHose_lawful law id) id .interrupted
  simp [warmHose, rested, apply_ite Lawful]

theorem abortGauges_lawful : Lawful (abortGauges s) :=
  abortGauge_lawful (abortGauge_lawful (abortGauge_lawful (abortGauge_lawful law .one) .two) .three) .four

/-- R183: a reset leaves no order under way. -/
theorem warmLoads_lawful : Lawful (warmLoads s) := by
  have is := law.with_activeOrder
  have machines : (warmLoads s).machines = s.machines := by rw [warmLoads_eq]
  have accounts : (warmLoads s).accounts = s.accounts := by rw [warmLoads_eq]
  have orders : (warmLoads s).loads.orders = s.loads.orders.map fun p => (p.1, warmOrder s.timebase.count p.2) := by
    rw [warmLoads_eq]
  refine LawfulWith.lawful (active := none)
    ⟨machines ▸ is.machines, accounts ▸ is.accounts, orders ▸ tableWf_map _ is.orders, fun c => ?_, fun p => ?_,
      fun c => ?_, drivesFollow_none.2 (by rw [warmLoads_eq]; exact ⟨rfl, rfl, rfl⟩)⟩
  · rw [warmLoads_compartments]
    exact is.books c
  · refine iff_of_false ?_ nofun
    rw [orders, List.mem_map]
    rintro ⟨⟨q, -, rfl⟩, isActive⟩
    exact absurd isActive (by simp [warmOrder_resting])
  · refine iff_of_false ?_ (by simp)
    rw [warmLoads_compartments, warmComp]
    have follows := is.comps c
    cases active : activeOrder s with
    | none => simpa [active] using follows
    | some p =>
      by_cases same : p.2.compartment = c
      · simp [same]
      · simpa [active, same] using follows

theorem warmBlocks_lawful : Lawful (warmBlocks s) := law

theorem beginWarm_lawful : Lawful (beginWarm s) := by
  have hoses := warmHose_lawful (warmHose_lawful (warmHose_lawful law .h1) .h2) .h3
  rw [beginWarm_blocks]
  exact warmBlocks_lawful (warmLoads_lawful (abortGauges_lawful hoses))

theorem endReset_lawful (kind : ResetKind) (cause : ResetCause) : Lawful (endReset kind cause s) := by
  unfold endReset
  rw [evaluatePermit_lawful, raise_lawful]
  exact law

theorem warmReset_lawful (cause : ResetCause) : Lawful (warmReset cause s) := endReset_lawful (beginWarm_lawful law) ..

theorem returnRollover_lawful : Lawful (returnRollover s) := by
  simp [returnRollover, law, apply_ite Lawful]

omit law in
/-- The records of a cold reset are those of the reset state. -/
theorem coldReset_lawful : Lawful (coldReset s) := by
  obtain ⟨-, tables, books, loads, -⟩ := resetMeetsTheLaws
  exact Lawful.of_same (s := State.reset) ⟨tables, books, loads⟩ rfl rfl rfl rfl

theorem powerUp_lawful : Lawful (powerUp s) := by
  unfold powerUp
  split
  · exact coldReset_lawful
  · exact returnRollover_lawful (warmReset_lawful law .powerUp)

theorem unpoweredHose_lawful (id : HoseId) : Lawful (unpoweredHose id s) := by
  rw [unpoweredHose_eq]
  exact law

theorem mainPowerLost_lawful : Lawful (mainPowerLost s) := by
  have still := unpoweredHose_lawful (unpoweredHose_lawful (unpoweredHose_lawful law .h1) .h2) .h3
  obtain ⟨-, arm, settle⟩ := still.with_activeOrder.drives
  exact (setLoads_lawful (l := { (unpoweredHose .h3 (unpoweredHose .h2 (unpoweredHose .h1 s))).loads with
    valveOpen := false }) still rfl ⟨nofun, arm, settle⟩).of_same rfl rfl rfl rfl

theorem powerCloses_lawful (id : HoseId) : Lawful (powerCloses id s) := by
  simp [powerCloses, law, apply_ite Lawful]

theorem warningAsserted_lawful : Lawful (warningAsserted s) :=
  powerCloses_lawful (powerCloses_lawful (powerCloses_lawful law .h1) .h2) .h3

theorem holdOffExpires_lawful : Lawful (holdOffExpires s) := by
  have warm := beginWarm_lawful law
  cases warned : s.field.levels.powerFail with
  | true =>
    rw [holdOffExpires_held s warned]
    generalize beginWarm s = w at warm ⊢
    exact warm
  | false =>
    rw [holdOffExpires_released s warned]
    exact endReset_lawful warm ..

theorem holdOffStep_lawful : Lawful (holdOffStep s) := by
  unfold holdOffStep
  split
  · cases s.timebase.holdOff with
    | none => exact law
    | some t => exact holdOffExpires_lawful (s := reachInstant t s) law
  · exact law
  · exact law

/-! ### The forms of a row -/

omit law in
/-- A row that is one state. -/
theorem next_lawful {t : State} (kept : Lawful t) :
    ∀ u, Host.Outcome.next (φ := Fault) (ρ := Refusal) t = .next u → Lawful u := by
  rintro _ ⟨⟩
  exact kept

theorem hostRow_lawful {c : Instr} {body : State → Reply} (kept : Lawful (body s).1) :
    ∀ t, hostRow c body s = .next t → Lawful t := by
  refine next_lawful ?_
  unfold hostStep
  split
  · split
    · rw [evaluatePermit_lawful]
      unfold deliver
      split
      · exact kept
      · exact kept
    · exact law
  · exact law
  · exact law

theorem fieldRow_lawful {act : State → State} (kept : Lawful (act s)) : ∀ t, fieldRow act s = .next t → Lawful t := by
  intro t runs
  obtain rfl | rfl := fieldRow_leaves runs
  · exact law
  · exact (evaluatePermit_lawful _).2 kept

/-- A timer's expiry acts where the timer runs. -/
theorem expire_lawful {timer : Option Nat} {act : State → State}
    (kept : ∀ t, timer.isSome = true → Lawful (reachInstant t s) → Lawful (act (reachInstant t s))) :
    Lawful (expire timer act s) := by
  cases timer with
  | none => exact law
  | some t => exact kept t rfl law

omit law in
theorem pulserRow_lawful {drift act : State → State} (drifts : Lawful (drift s)) (kept : Lawful (act s)) :
    ∀ t, pulserRow drift act s = .next t → Lawful t := by
  unfold pulserRow
  split
  · exact next_lawful ((evaluatePermit_lawful _).2 kept)
  · exact next_lawful drifts
  · exact next_lawful drifts

theorem portRow_lawful {act : State → Port → Port} : ∀ t, portRow act s = .next t → Lawful t := by
  unfold portRow
  split <;> exact next_lawful law

theorem switchStep_lawful {old new : Bool} {place : Bool → Switches → Switches} {act : State → State}
    (kept : ∀ {u}, Lawful u → Lawful (act u)) : Lawful (switchStep old new place act s) := by
  unfold switchStep
  split
  · exact law
  · dsimp only
    split
    · rw [evaluatePermit_lawful]
      exact kept law
    · exact law
    · exact law

omit law in
/-- A switch's two levels each act as they do. -/
theorem ite_level_lawful {level : Bool} {on off : State → State} (set : ∀ {u}, Lawful u → Lawful (on u))
    (cleared : ∀ {u}, Lawful u → Lawful (off u)) :
    ∀ {u}, Lawful u → Lawful (if level then on u else off u) := by
  intro u law
  split
  · exact set law
  · exact cleared law

theorem powerFailWarning_lawful (asserted : Bool) : Lawful (powerFailWarning asserted s) := by
  have acts {u : State} (kept : Lawful u) : Lawful ((if asserted then warningAsserted else warningReleased) u) := by
    cases asserted with
    | false => exact kept
    | true => exact warningAsserted_lawful kept
  unfold powerFailWarning
  generalize (if asserted then warningAsserted else warningReleased) = act at acts ⊢
  have switched : Lawful (switchStep s.field.levels.powerFail asserted placePowerFail act s) :=
    switchStep_lawful law acts
  dsimp only
  split
  · exact endReset_lawful switched ..
  · exact switched

/-! ### Every command -/

/-- The host's commands, each by what its reply leaves. -/
theorem exec_host_lawful {c : Instr} (host : fromHost c = true) : ∀ t, exec c s = .next t → Lawful t := by
  cases c with
  | machineInstall => exact hostRow_lawful law (doMachineInstall_lawful law ..)
  | machineAmendChange => exact hostRow_lawful law (doMachineAmendChange_lawful law ..)
  | machineAmendRewrite => exact hostRow_lawful law (doMachineAmendRewrite_lawful law ..)
  | machineRead => exact hostRow_lawful law (doMachineRead_lawful law ..)
  | machineFind => exact hostRow_lawful law (doMachineFind_lawful law ..)
  | machineSuspend => exact hostRow_lawful law (doMachineSuspend_lawful law ..)
  | machineReinstate => exact hostRow_lawful law (doMachineReinstate_lawful law ..)
  | machineRetire => exact hostRow_lawful law (doMachineRetire_lawful law ..)
  | tagQuery => exact hostRow_lawful law (doTagQuery_lawful law ..)
  | rangeWrite => exact hostRow_lawful law (doRangeWrite_lawful law ..)
  | rangeRead => exact hostRow_lawful law (doRangeRead_lawful law ..)
  | defaultPolicySet => exact hostRow_lawful law (doDefaultPolicySet_lawful law ..)
  | readerSetup => exact hostRow_lawful law (doReaderSetup_lawful law ..)
  | readerStatus => exact hostRow_lawful law (doReaderStatus_lawful law ..)
  | accountOpen => exact hostRow_lawful law (doAccountOpen_lawful law ..)
  | accountAmendChange => exact hostRow_lawful law (doAccountAmendChange_lawful law ..)
  | accountAmendRewrite => exact hostRow_lawful law (doAccountAmendRewrite_lawful law ..)
  | accountRead => exact hostRow_lawful law (doAccountRead_lawful law ..)
  | accountStop => exact hostRow_lawful law (doAccountStop_lawful law ..)
  | accountResume => exact hostRow_lawful law (doAccountResume_lawful law ..)
  | accountRetire => exact hostRow_lawful law (doAccountRetire_lawful law ..)
  | settle => exact hostRow_lawful law (doSettle_lawful law ..)
  | periodClose => exact hostRow_lawful law (doPeriodClose_lawful law ..)
  | statementRead => exact hostRow_lawful law (doStatementRead_lawful law ..)
  | statementRelease => exact hostRow_lawful law (doStatementRelease_lawful law ..)
  | priceWrite => exact hostRow_lawful law (doPriceWrite_lawful law ..)
  | compartmentSetup => exact hostRow_lawful law (doCompartmentSetup_lawful law ..)
  | compartmentService => exact hostRow_lawful law (doCompartmentService_lawful law ..)
  | restate => exact hostRow_lawful law (doRestate_lawful law ..)
  | compartmentRead => exact hostRow_lawful law (doCompartmentRead_lawful law ..)
  | strapWrite => exact hostRow_lawful law (doStrapWrite_lawful law ..)
  | strapRead => exact hostRow_lawful law (doStrapRead_lawful law ..)
  | gauge => exact hostRow_lawful law (doGauge_lawful law ..)
  | authoriseManual => exact hostRow_lawful law (doAuthoriseManual_lawful law ..)
  | referReplyAccept => exact hostRow_lawful law (doReferReplyAccept_lawful law ..)
  | referReplyRefuse => exact hostRow_lawful law (doReferReplyRefuse_lawful law ..)
  | referReplyRecheck => exact hostRow_lawful law (doReferReplyRecheck_lawful law ..)
  | hoseSetup => exact hostRow_lawful law (doHoseSetup_lawful law ..)
  | hoseRead => exact hostRow_lawful law (doHoseRead_lawful law ..)
  | hoseService => exact hostRow_lawful law (doHoseService_lawful law ..)
  | rewind => exact hostRow_lawful law (doRewind_lawful law ..)
  | hoseStop => exact hostRow_lawful law (doHoseStop_lawful law ..)
  | collect => exact hostRow_lawful law (doCollect_lawful law ..)
  | sessionRead => exact hostRow_lawful law (doSessionRead_lawful law ..)
  | meterRead => exact hostRow_lawful law (doMeterRead_lawful law ..)
  | metrologyWrite => exact hostRow_lawful law (doMetrologyWrite_lawful law ..)
  | gradeCoefficientWrite => exact hostRow_lawful law (doGradeCoefficientWrite_lawful law ..)
  | metrologyRead => exact hostRow_lawful law (doMetrologyRead_lawful law ..)
  | proveStart => exact hostRow_lawful law (doProveStart_lawful law ..)
  | proveResult => exact hostRow_lawful law (doProveResult_lawful law ..)
  | proveAbort => exact hostRow_lawful law (doProveAbort_lawful law ..)
  | proveRead => exact hostRow_lawful law (doProveRead_lawful law ..)
  | loadCreate => exact hostRow_lawful law (doLoadCreate_lawful law ..)
  | loadArm => exact hostRow_lawful law (doLoadArm_lawful law ..)
  | loadCancel => exact hostRow_lawful law (doLoadCancel_lawful law ..)
  | loadAbort => exact hostRow_lawful law (doLoadAbort_lawful law ..)
  | loadRead => exact hostRow_lawful law (doLoadRead_lawful law ..)
  | loadRetire => exact hostRow_lawful law (doLoadRetire_lawful law ..)
  | inletSetup => exact hostRow_lawful law (doInletSetup_lawful law ..)
  | clockSet => exact hostRow_lawful law (doClockSet_lawful law ..)
  | rolloverSet => exact hostRow_lawful law (doRolloverSet_lawful law ..)
  | faultRead => exact hostRow_lawful law (doFaultRead_lawful law ..)
  | faultControl => exact hostRow_lawful law (doFaultControl_lawful law ..)
  | faultClear => exact hostRow_lawful law (doFaultClear_lawful law ..)
  | noticeNext => exact hostRow_lawful law (doNoticeNext_lawful law ..)
  | noticeMask => exact hostRow_lawful law (doNoticeMask_lawful law ..)
  | priceRead | fieldStatus | inletRead | windowSet | clockRead | identify => exact hostRow_lawful law law
  | restart => exact hostRow_lawful law (warmReset_lawful law .restart)
  | _ => exact absurd host nofun

/-- The events, each by what it does to a running controller. -/
theorem exec_event_lawful {c : Instr} (event : fromHost c = false) : ∀ t, exec c s = .next t → Lawful t := by
  cases c with
  | windowExpiry => exact fieldRow_lawful law (windowExpires_lawful law ..)
  | storeWriteComplete => exact fieldRow_lawful law (storeWritten_lawful law)
  | resetPin => exact fieldRow_lawful law (warmReset_lawful law .resetPin)
  | powerUp => exact next_lawful (powerUp_lawful law)
  | powerFailHoldOffExpiry => exact next_lawful (holdOffStep_lawful law)
  | retentionSupplyLoss => exact next_lawful law
  | powerFailWarning => exact next_lawful (powerFailWarning_lawful law _)
  | mainPowerLoss => exact next_lawful (mainPowerLost_lawful law)
  | siteClockSecond => exact next_lawful (clockSecond_lawful law)
  | commandTransaction => rw [exec_commandTransaction]; exact portRow_lawful law
  | readTransaction => rw [exec_readTransaction]; exact portRow_lawful law
  | linkReset => rw [exec_linkReset]; exact portRow_lawful law
  | emergencyStop => exact next_lawful (switchStep_lawful law (ite_level_lawful estopAsserted_lawful tryOpenInlet_lawful))
  | parkBrake => exact next_lawful (switchStep_lawful law (ite_level_lawful id brakeReleased_lawful))
  | nozzleSwitch =>
    exact next_lawful (switchStep_lawful law
      (ite_level_lawful (fun kept => nozzleLifted_lawful kept _) fun kept => nozzleHung_lawful kept _))
  | startInput =>
    exact next_lawful (switchStep_lawful law
      (ite_level_lawful (fun kept => startAsserted_lawful kept _) fun kept => startReleased_lawful kept _))
  | stowSwitch =>
    exact next_lawful (switchStep_lawful law (ite_level_lawful (fun kept => endRewind_lawful kept ..) id))
  | inletCoupling =>
    exact next_lawful (switchStep_lawful law
      (ite_level_lawful tryOpenInlet_lawful fun kept => endLoading_lawful kept _))
  | highLevelSwitch =>
    exact next_lawful (switchStep_lawful law (ite_level_lawful (fun kept => highLevel_lawful kept _) tryOpenInlet_lawful))
  | sealSwitch => exact next_lawful (switchStep_lawful law id)
  | receiverCharacter | pwmPeriodStart => exact fieldRow_lawful law law
  | lineBreak => exact fieldRow_lawful law (breakFound_lawful law ..)
  | idleEvent => exact fieldRow_lawful law (gapFound_lawful law ..)
  | fifoEntryTaken => exact fieldRow_lawful law (takeFromFifo_lawful law ..)
  | silenceTimerExpiry => exact fieldRow_lawful law (silenceExpires_lawful law ..)
  | graceExpiry => exact fieldRow_lawful law (graceExpires_lawful law ..)
  | tagPresent => exact fieldRow_lawful law (tagPresentActs_lawful (takeTagEvent_lawful law ..) ..)
  | tagLost => exact fieldRow_lawful law (tagLostActs_lawful (takeTagEvent_lawful law ..) ..)
  | tagChanged => exact fieldRow_lawful law (tagChangedActs_lawful (takeTagEvent_lawful law ..) ..)
  | referDeadlineExpiry =>
    exact fieldRow_lawful law (expire_lawful law fun _ _ reached => endReferred_lawful reached ..)
  | readyTimerExpiry => exact fieldRow_lawful law (expire_lawful law fun _ _ reached => closeSession_lawful reached ..)
  | resumeTimerExpiry => exact fieldRow_lawful law (expire_lawful law fun _ _ reached => reached)
  | settleTimerExpiry => exact fieldRow_lawful law (expire_lawful law fun _ _ reached => settleExpires_lawful reached ..)
  | rewindTimerExpiry => exact fieldRow_lawful law (expire_lawful law fun _ _ reached => rewindExpires_lawful reached ..)
  | proveReadyTimeout => exact fieldRow_lawful law (expire_lawful law fun _ _ reached => endRun_lawful reached ..)
  | proveSettleTimerExpiry =>
    exact fieldRow_lawful law (expire_lawful law fun _ _ reached => proveSettleExpires_lawful reached ..)
  | armTimerExpiry => exact fieldRow_lawful law (expire_lawful law fun _ runs reached => armExpires_lawful reached runs)
  | inletIdleTimerExpiry => exact fieldRow_lawful law (expire_lawful law fun _ _ reached => endLoading_lawful reached _)
  | loadSettleTimerExpiry =>
    exact fieldRow_lawful law (expire_lawful law fun _ runs reached => loadSettleExpires_lawful reached runs)
  | forwardPulse => exact pulserRow_lawful (driftOne_lawful law ..) (forwardPulse_lawful law ..)
  | reversePulse => exact pulserRow_lawful (driftOne_lawful law ..) (reversePulse_lawful law ..)
  | pulserQuarterStep => exact pulserRow_lawful (driftOne_lawful law ..) (quarterStep_lawful law ..)
  | illegalTransition =>
    rw [exec_illegalTransition, execIllegalTransition]
    exact pulserRow_lawful (driftBoth_lawful law _) (countIllegal_lawful (moveBothPins_lawful law _) _)
  | probeSample => exact fieldRow_lawful law (sampleAll_lawful law ..)
  | lineTemperatureValidityChange => exact fieldRow_lawful law (takeLineTemp_lawful law ..)
  | _ => exact absurd event nofun

theorem exec_lawful (c : Instr) : ∀ t, exec c s = .next t → Lawful t := by
  cases host : fromHost c with
  | true => exact exec_host_lawful law host
  | false => exact exec_event_lawful law host

theorem tick_lawful : Lawful (tick s) := by
  unfold tick
  split <;> exact law

end

/-- Settles O58: a step is the command at the front of the queue, the controller's own work as a command, or a tick, and
each keeps the law. -/
theorem everyStepKeepsBooksAndLoadsR62R166 : Obligations.EveryStepKeepsBooksAndLoadsR62R166 := by
  intro s t tables books loads steps
  have law : Lawful s := ⟨tables, books, loads⟩
  unfold step at steps
  split at steps
  next =>
    unfold idle at steps
    split at steps
    next =>
      cases steps
      exact tick_lawful law
    next => exact exec_lawful law _ t steps
  next rest _ => exact exec_lawful (s := { s with pending := rest }) law _ t steps

end Sys2Proof.Machine
end

section
/-! PROOFS. Compartments (Chapter 4): the restock comparison, and the commands of a compartment with their checks in
order (R64, R66 to R70, R74). -/

namespace Sys2Proof.Machine

/-! ### The restock comparison (R64) -/

section
variable {c : CompId} {k : Compartment} {s : State} (is : s.compartments.get c = k)
include is

theorem compareRestock_by_stock {low : Prop} [Decidable low]
    (stock : low ↔ k.book - k.committed < (k.threshold : Int) * 1000000) : compareRestock c s =
      if low ∧ k.restockNeeded = false then raise (.restock c) (setComp c { k with restockNeeded := true } s)
      else if ¬ low ∧ k.restockNeeded = true then setComp c { k with restockNeeded := false } s
      else s := by
  have lower : available k < (k.threshold * Config.litre : Nat) ↔ low := by simp [stock, available, Config.litre]
  simp only [compareRestock, is, Bool.and_eq_true, Bool.not_eq_true', decide_eq_true_eq, decide_eq_false_iff_not, lower]

end

/-- Settles O20: the three outcomes of the comparison, by the stock and the flag. -/
theorem restockComparisonFollowsR64 : Obligations.RestockComparisonFollowsR64 := by
  refine fun c k s is => ⟨fun low clear => ?_, fun high marked => ?_, fun agrees => ?_⟩
  · rw [compareRestock_by_stock is Iff.rfl, if_pos ⟨low, clear⟩]
    rfl
  · rw [compareRestock_by_stock is Iff.rfl, if_neg (by simp [marked]), if_pos ⟨Int.not_lt.2 high, marked⟩]
    rfl
  · rw [compareRestock_by_stock is agrees.symm, if_neg (by simp), if_neg (by simp)]

/-! ### COMPARTMENT SETUP, COMPARTMENT SERVICE and RESTATE (R66 to R68) -/

section
variable {n : Nat} {c : CompId} {k : Compartment} {s : State}

theorem doCompartmentSetup_eq (named : fourOf n = some c) (is : s.compartments.get c = k) (g : Option Grade)
    (cap th : Nat) : doCompartmentSetup n g cap th s =
      checkedReply
        [(decide (100 ≤ cap ∧ cap ≤ 20000 ∧ th ≤ 20000), .malformed),
          (g == k.grade || k.state == .outOfService, .state), (cap == k.capacity || k.state != .loading, .state)] s
        (answer .ok (compareRestock c (setComp c { k with grade := g, capacity := cap, threshold := th } s))) := by
  simp only [doCompartmentSetup, named, is]
  refine ite_eq_checkedReply (by simp [inRange]; omega) fun _ => ?_
  refine ite_eq_checkedReply (by simp) fun _ => ?_
  exact ite_eq_checkedReply (by simp) fun _ => rfl

theorem doCompartmentService_in (named : fourOf n = some c) (is : s.compartments.get c = k) :
    doCompartmentService n .inService s =
      checkedReply [(k.state != .loading, .busy)] s (answer .ok (setComp c { k with state := .inService } s)) := by
  simp only [doCompartmentService, named, is]
  exact ite_eq_checkedReply (by simp) fun _ => rfl

theorem doCompartmentService_out (named : fourOf n = some c) (is : s.compartments.get c = k) :
    doCompartmentService n .outOfService s =
      checkedReply [(k.state != .loading, .busy), (!drawnFrom c s, .busy)] s
        (answer .ok (setComp c { k with state := .outOfService } s)) := by
  simp only [doCompartmentService, named, is]
  refine ite_eq_checkedReply (by simp) fun _ => ?_
  exact ite_eq_checkedReply (by simp) fun _ => rfl

/-- R68: the value comes from the host, or from the figures of the last gauge. -/
theorem restateValue_ok {source : RestateSource} {v : Nat}
    (gives : source = .host v ∨ (source = .gauge ∧ ∃ g f, k.lastGauge = some g ∧ g.figures = some f ∧ f.net = v)) :
    restateValue k source = .ok v := by
  rcases gives with rfl | ⟨rfl, g, f, last, figures, rfl⟩
  · rfl
  · simp [restateValue, last, figures]

theorem restateValue_gauge_error (without : k.lastGauge = none ∨ ∃ g, k.lastGauge = some g ∧ g.figures = none) :
    restateValue k .gauge = .error .state := by
  rcases without with last | ⟨g, last, figures⟩
  · simp [restateValue, last]
  · simp [restateValue, last, figures]

theorem doRestate_eq {source : RestateSource} {v : Nat} (named : fourOf n = some c) (is : s.compartments.get c = k)
    (gives : restateValue k source = .ok v) (fits : restateMalformed source = false) : doRestate n source s =
      checkedReply [(k.state != .loading, .state)] s (okWith (bookBytes k)
        (compareRestock c (setComp c { k with book := v, base := v, loaded := 0, dispensed := 0 } s))) := by
  simp only [doRestate, named, is, fits, gives, Bool.false_eq_true, if_false]
  exact ite_eq_checkedReply (by simp) fun _ => rfl

/-- R68: without figures RESTATE from the gauge is STATE, whatever the compartment's state. -/
theorem doRestate_without_figures (named : fourOf n = some c)
    (error : restateValue (s.compartments.get c) .gauge = .error .state) :
    doRestate n .gauge s = answer .state s := by
  simp [doRestate, named, restateMalformed, error]

theorem doRestate_malformed {v : Nat} (large : 2 ^ 40 ≤ v) (s : State) : doRestate n (.host v) s = answer .malformed s := by
  have outside : restateMalformed (.host v) = true := by
    have bound : Config.volumeMax < v := by unfold Config.volumeMax; omega
    simpa [restateMalformed] using bound
  unfold doRestate
  cases fourOf n <;> simp [outside]

end

/-- Settles O16: each command by its checks in order; a number that names no compartment before them all. -/
theorem compartmentCommandsFollowR66R68 : Obligations.CompartmentCommandsFollowR66R68 := by
  refine ⟨fun n c k s ready named is => ⟨fun g cap th => ?_, ?_, ?_, fun source v gives fits => ?_, fun without => ?_⟩,
    fun n s ready unnamed => ⟨fun g cap th => ?_, fun target => ?_, fun source => ?_, fun m v large => ?_⟩⟩
  · exact hostRow_checkedReply ready (doCompartmentSetup_eq named is g cap th)
  · exact hostRow_checkedReply ready (doCompartmentService_in named is)
  · exact hostRow_checkedReply ready (doCompartmentService_out named is)
  · refine hostRow_checkedReply ready (doRestate_eq named is (restateValue_ok gives) ?_)
    cases source with
    | gauge => rfl
    | host w =>
      obtain rfl : w = v := by simpa using gives
      have small := fits rfl
      have bound : w ≤ Config.volumeMax := by unfold Config.volumeMax; omega
      simpa [restateMalformed] using bound
  · exact hostRow_answers ready (doRestate_without_figures named (restateValue_gauge_error (is ▸ without)))
  · exact hostRow_answers ready (by simp [doCompartmentSetup, unnamed]; rfl)
  · exact hostRow_answers ready (by simp [doCompartmentService, unnamed]; rfl)
  · exact hostRow_answers ready (by simp [doRestate, unnamed]; rfl)
  · exact hostRow_answers ready (doRestate_malformed large s)

end Sys2Proof.Machine
end

section
/-! PROOFS. Strapping tables and gauges (Chapter 4): the commands with their checks in order (R69, R70, R74), and the
figures of a gauge over their whole range (R71, R73, R144). -/

namespace Sys2Proof.Machine

/-! ### Well-formed strapping tables (R70) -/

theorem strictlyRising_both (points : List StrapPoint) :
    (strictlyRising StrapPoint.level points && strictlyRising StrapPoint.volume points)
      = decide (points.IsChain fun p q => p.level < q.level ∧ p.volume < q.volume) := by
  induction points with
  | nil => rfl
  | cons p rest ih =>
    cases rest with
    | nil => simp [strictlyRising]
    | cons q rest =>
      rw [Bool.eq_iff_iff] at ih ⊢
      simp only [Bool.and_eq_true, decide_eq_true_eq, strictlyRising, List.isChain_cons_cons] at ih ⊢
      tauto

theorem strapOk_eq (points : List StrapPoint) : strapOk points =
    (decide (2 ≤ points.length ∧ points.length ≤ 16)
      && points.all (fun p => decide (p.level ≤ 32000 ∧ p.volume ≤ 20000))
      && decide (points.IsChain (fun p q => p.level < q.level ∧ p.volume < q.volume))) := by
  rw [← strictlyRising_both]
  simp only [strapOk, inRange, Bool.decide_and, Bool.and_assoc]

/-! ### COMPARTMENT READ, STRAP WRITE, STRAP READ and GAUGE (R69, R70, R74) -/

section
variable {n : Nat} {c : CompId} {k : Compartment} {s : State}

theorem doCompartmentRead_eq (named : fourOf n = some c) (is : s.compartments.get c = k) :
    doCompartmentRead n s = okWith
      (compartmentBytes k ++ leSigned 8 (k.book - k.committed) ++ sampleBytes k.sample
        ++ k.gauge.toList.flatMap (fun g => u8 g.samples)) s := by
  cases gauge : k.gauge <;> simp [doCompartmentRead, named, is, gauge, available]

theorem doStrapWrite_eq (named : fourOf n = some c) (is : s.compartments.get c = k) (points : List StrapPoint) :
    doStrapWrite n points s =
      checkedReply [(strapOk points, .malformed), (k.state != .loading && k.gauge.isNone, .busy)] s
        (answer .ok (setComp c { k with strap := some points } s)) := by
  simp only [doStrapWrite, named, is]
  refine ite_eq_checkedReply (by simp) fun _ => ?_
  refine ite_eq_checkedReply ?_ fun _ => rfl
  cases k.gauge <;> simp

theorem doStrapRead_eq (named : fourOf n = some c) (is : s.compartments.get c = k) :
    doStrapRead n s = okWith (optional (counted strapPointBytes) k.strap) s := by
  simp only [doStrapRead, named, is]

theorem doGauge_eq (named : fourOf n = some c) (is : s.compartments.get c = k) : doGauge n s =
    checkedReply
      [(k.strap.isSome, .state), (k.gauge.isNone, .busy), (k.state != .loading, .busy), (!drawnFrom c s, .busy)] s
      (answer .accepted (setComp c { k with gauge := some { origin := .host, samples := 0, recent := [] } } s)) := by
  simp only [doGauge, named, is]
  refine ite_eq_checkedReply (by simp) fun _ => ?_
  refine ite_eq_checkedReply (by cases k.gauge <;> simp) fun _ => ?_
  refine ite_eq_checkedReply (by simp) fun _ => ?_
  exact ite_eq_checkedReply (by simp) fun _ => rfl

end

/-- Settles O17: each command by its checks in order; a number that names no compartment before them all. -/
theorem strapAndGaugeCommandsFollowR69R74 : Obligations.StrapAndGaugeCommandsFollowR69R74 := by
  refine ⟨fun n c k s ready named is => ⟨?_, fun points => ?_, ?_, ?_⟩,
    fun n s ready unnamed => ⟨?_, fun points => ?_, ?_, ?_⟩⟩
  · exact hostRow_answers ready (doCompartmentRead_eq named is)
  · rw [← strapOk_eq]
    exact hostRow_checkedReply ready (doStrapWrite_eq named is points)
  · exact hostRow_answers ready (doStrapRead_eq named is)
  · exact hostRow_checkedReply ready (doGauge_eq named is)
  · exact hostRow_answers ready (by simp [doCompartmentRead, unnamed]; rfl)
  · exact hostRow_answers ready (by simp [doStrapWrite, unnamed]; rfl)
  · exact hostRow_answers ready (by simp [doStrapRead, unnamed]; rfl)
  · exact hostRow_answers ready (by simp [doGauge, unnamed]; rfl)

/-! ### The gross volume of a level (R71) -/

/-- Each point of a well-formed table lies below those after it. -/
theorem strapOk_sorted {points : List StrapPoint} (ok : strapOk points = true) :
    points.Pairwise fun p q => p.level < q.level := by
  rw [strapOk_eq, Bool.and_eq_true, decide_eq_true_eq] at ok
  obtain ⟨-, rising⟩ := ok
  have trans : IsTrans StrapPoint fun p q => p.level < q.level := ⟨fun _ _ _ => Nat.lt_trans⟩
  exact (rising.imp fun _ _ both => both.1).pairwise

section
variable {level : Nat} {lo : StrapPoint} (above : lo.level < level)
include above

/-- The points below the level are passed over. -/
theorem grossFrom_append (rest : List StrapPoint) : ∀ (first : StrapPoint) (front : List StrapPoint),
    (∀ p ∈ front, p.level < level) → grossFrom level first (front ++ lo :: rest) = grossFrom level lo rest
  | _, [], _ => if_neg (Nat.not_le.2 above)
  | _, p :: front, below => by
    rw [List.forall_mem_cons] at below
    exact (if_neg (Nat.not_le.2 below.1)).trans (grossFrom_append rest p front below.2)

/-- R71: what counts is the last point below the level. -/
theorem grossOf_append {front rest : List StrapPoint} (ok : strapOk (front ++ lo :: rest) = true) :
    grossOf level (some (front ++ lo :: rest)) = grossFrom level lo rest := by
  obtain ⟨-, -, before⟩ := List.pairwise_append.1 (strapOk_sorted ok)
  have below : ∀ p ∈ front, p.level < level := fun p listed => (before p listed lo (by simp)).trans above
  cases front with
  | nil => exact if_neg (Nat.not_le.2 above)
  | cons p front =>
    rw [List.forall_mem_cons] at below
    exact (if_neg (Nat.not_le.2 below.1)).trans (grossFrom_append above rest p front below.2)

end

/-! ### The volume correction factor (R73, R144) -/

theorem roundHalfAway_ten (x : Int) : roundHalfAway x 10 = x.sign * ((2 * |x| + 10) / 20) := by
  unfold roundHalfAway roundHalfUp
  rcases lt_trichotomy x 0 with neg | rfl | pos
  · rw [if_neg (by omega), Int.sign_eq_neg_one_of_neg neg, abs_of_neg neg]
    omega
  · rfl
  · rw [if_pos pos.le, Int.sign_eq_one_of_pos pos, abs_of_pos pos]
    omega

section
variable {alpha : Nat} {t : Int} (coefficient : alpha ≤ 2000) (cold : -400 ≤ t) (warm : t ≤ 850)
include coefficient cold warm

theorem expansion_bounds : -1100000 ≤ (alpha * (t - 150) : Int) ∧ (alpha * (t - 150) : Int) ≤ 1400000 := by
  have small : (alpha : Int) ≤ 2000 := by exact_mod_cast coefficient
  constructor <;> nlinarith

theorem rounded_expansion_bounds :
    -110000 ≤ roundHalfAway (alpha * (t - 150)) 10 ∧ roundHalfAway (alpha * (t - 150)) 10 ≤ 140000 := by
  obtain ⟨least, most⟩ := expansion_bounds coefficient cold warm
  unfold roundHalfAway roundHalfUp
  split <;> omega

end

/-- Settles O18: the table by the last point below the level, the factor by the bounds of its expansion. -/
theorem gaugeArithmeticFollowsR71R73 : Obligations.GaugeArithmeticFollowsR71R73 := by
  refine ⟨fun points level ok => ⟨?_, ?_, ?_⟩, fun alpha t coefficient cold warm => ?_⟩
  · rintro p rest rfl low
    exact if_pos low
  · rintro front p rfl above
    exact grossOf_append above ok
  · rintro front lo hi back rfl above below
    exact (grossOf_append above ok).trans (if_pos below)
  · obtain ⟨least, most⟩ := rounded_expansion_bounds coefficient cold warm
    have factor : (vcf alpha t : Int) = 1000000 - roundHalfAway (alpha * (t - 150)) 10 := by
      unfold vcf
      omega
    refine ⟨by omega, by omega, by simp [vcf, roundHalfAway, roundHalfUp], ?_⟩
    rw [factor, roundHalfAway_ten]

end Sys2Proof.Machine
end

section
/-! PROOFS. Probe sampling (R72, R75, R76): what a sample does to a gauge in flight, how a gauge completes, and what its
end does to the load order it was started for (R170, R174). -/

namespace Sys2Proof.Machine

section
variable {c : CompId} {k : Compartment} {s : State}

/-! ### One compartment's sample (R72, R75, R76) -/

theorem takeSample_ungauged (is : s.compartments.get c = k) (ungauged : k.gauge = none) (r : RawSample) :
    takeSample c r s = setComp c { k with sample := r } s := by
  simp [takeSample, is, ungauged]

theorem failGauge_eq (is : s.compartments.get c = k) (g : Gauge) (detail : Nat) :
    failGauge c g detail s = gaugeEnded c g.origin none (report .gauge .probe c.number detail
      (setComp c
        { k with
          gauge := none, outcome := .completed
          lastGauge := some
            { time := s.timebase.count, status := .probeFault, figures := none, samples := g.samples + 1 } } s)) := by
  subst is
  rfl

theorem setComp_setComp (c : CompId) (k l : Compartment) (s : State) : setComp c k (setComp c l s) = setComp c k s := by
  simp [setComp]

/-- The detail of a PROBE fault tells why the sample is not GOOD. -/
theorem takeSample_fails {g : Gauge} {r : RawSample} {detail : Int} (is : s.compartments.get c = k)
    (gauged : k.gauge = some g)
    (why : (r.statusFault = true ∧ detail = 0) ∨ (r.statusFault = false ∧ 32000 < r.level ∧ detail = 1)
      ∨ (r.statusFault = false ∧ r.level ≤ 32000 ∧ (r.temperature < -500 ∨ 1000 < r.temperature) ∧ detail = 2)) :
    ∃ code : Nat, detail = code ∧ takeSample c r s = failGauge c g code (setComp c { k with sample := r } s) := by
  rcases why with ⟨fault, rfl⟩ | ⟨sound, level, rfl⟩ | ⟨sound, level, temperature, rfl⟩
  · have condition : sampleCondition r = .levelFault := by simp [sampleCondition, fault]
    exact ⟨0, rfl, by simp [takeSample, is, gauged, condition]⟩
  · have condition : sampleCondition r = .levelRange := by simp [sampleCondition, sound, level]
    exact ⟨1, rfl, by simp [takeSample, is, gauged, condition]⟩
  · have invalid : tempValid r.temperature = false := by simp [tempValid]; omega
    have condition : sampleCondition r = .tempFault := by simp [sampleCondition, sound, Nat.not_lt.2 level, invalid]
    exact ⟨2, rfl, by simp [takeSample, is, gauged, condition]⟩

/-- A GOOD sample is counted; its gauge completes settled, completes unsettled, or goes on. -/
theorem takeSample_good {g : Gauge} {r : RawSample} (is : s.compartments.get c = k) (gauged : k.gauge = some g)
    (sound : r.statusFault = false) (level : r.level ≤ 32000) (cold : -500 ≤ r.temperature)
    (warm : r.temperature ≤ 1000) :
    takeSample c r s = goodSample c g r (setComp c { k with sample := r } s) := by
  have valid : tempValid r.temperature = true := by simp [tempValid]; omega
  have condition : sampleCondition r = .good := by simp [sampleCondition, sound, Nat.not_lt.2 level, valid]
  simp [takeSample, is, gauged, condition]

theorem goodSample_counts {g counted : Gauge} {r : RawSample} (is : s.compartments.get c = k)
    (countedIs : counted = { g with
      samples := g.samples + 1
      recent := ((r.level, max (-400) (min r.temperature 850)) :: g.recent).take 16 }) :
    goodSample c g r s =
      if 16 ≤ counted.samples ∧ spread (counted.recent.map Prod.fst) ≤ 20 then completeGauge c counted true s
      else if 240 ≤ counted.samples then completeGauge c counted false s
      else setComp c { k with gauge := some counted } s := by
  subst countedIs is
  rfl

/-! ### A gauge's completion (R73, R75) -/

theorem gaugeFigures_eq {recent : List (Nat × Int)} {level gross net : Nat} {temp : Int} {above : Bool}
    (levelIs : level = (recent.map Prod.fst).sum / 16)
    (tempIs : temp = max (-400) (min (Int.tdiv (recent.map Prod.snd).sum 16) 850))
    (grossIs : grossOf level k.strap = (gross, above)) (netIs : net = gross * vcf (alphaOf k.grade s) temp / 1000000) :
    gaugeFigures k recent s =
      ({ level := level, temperature := temp, gross := gross, net := net, variance := k.book - net }, above) := by
  subst levelIs tempIs netIs
  simp [gaugeFigures, clampTemp, grossIs]

theorem completeGauge_eq {g : Gauge} {figures : GaugeFigures} {above : Bool} (settled : Bool)
    (is : s.compartments.get c = k) (figuresAre : gaugeFigures k g.recent s = (figures, above)) :
    completeGauge c g settled s = gaugeEnded c g.origin (some figures.net)
      ((if settled then id else report .gauge .unsettled c.number (spread (g.recent.map Prod.fst) : Nat))
        (setComp c
          { k with
            gauge := none, outcome := .completed
            lastGauge := some
              { time := s.timebase.count
                status := if above then .overRange else if settled then .settled else .unsettled
                figures := some figures, samples := g.samples } } s)) := by
  cases settled <;> simp [completeGauge, is, figuresAre, writeGauge, siteTime]

/-! ### The end of a load gauge (R170, R174) -/

section
variable {slot : Nat} {o : LoadOrder} (active : activeOrder s = some (slot, o))
include active

theorem loadGaugeEnded_armed (armed : o.state = .armed) (net : Option Nat) : loadGaugeEnded net s =
    setLoads { s.loads with
      orders := tableSet s.loads.orders slot { o with gaugeBefore := net }, beforeEnded := true } s := by
  simp only [loadGaugeEnded, active, armed]

theorem loadGaugeEnded_settling (settling : o.state = .settling) (net : Option Nat) :
    loadGaugeEnded net s = completeOrder slot o net s := by
  simp only [loadGaugeEnded, active, settling]

end

theorem completeOrder_eq {slot : Nat} {o : LoadOrder} (is : s.compartments.get o.compartment = k) (after : Option Nat) :
    completeOrder slot o after s = raise (.load slot) (compareRestock o.compartment
      { s with
        loads := { s.loads with
          orders := tableSet s.loads.orders slot
            { o with
              state := .complete, gaugeAfter := after, completed := some s.timebase.count
              docketVariance := some ((o.net : Int) - o.expected * 1000000)
              gaugeVariance := gaugeVarianceOf o after }
          settleTimer := none, watch := none }
        compartments := s.compartments.set o.compartment { k with state := .inService } }) := by
  subst is
  simp [completeOrder, setLoads, releaseCompartment, setComp, docketVarianceOf, Config.litre, siteTime]

end

/-- Settles O19: a sample by its condition, a gauge's completion by its figures, its end by the order it was started
for. -/
theorem probeSamplingFollowsR72R76 : Obligations.ProbeSamplingFollowsR72R76 := by
  refine ⟨?_, ?_, fun c net s => ⟨rfl, fun slot o active => ⟨fun armed => ?_, fun settling k is => ?_⟩⟩⟩
  · rintro c k r s t is rfl
    refine ⟨fun running a b d => fieldRow_running running, fun ungauged => takeSample_ungauged is ungauged r,
      fun g gauged => ⟨fun detail why => ?_, fun counted sound level cold warm countedIs => ?_⟩⟩
    · obtain ⟨code, rfl, fails⟩ := takeSample_fails is gauged why
      rw [fails, failGauge_eq (k := { k with sample := r }) (by simp), setComp_setComp]
      simp [setComp]
    · rw [takeSample_good is gauged sound level cold warm,
        goodSample_counts (k := { k with sample := r }) (by simp) countedIs]
      rfl
  · intro c k g settled s is _ level gross net temp above levelIs tempIs grossIs netIs
    exact completeGauge_eq settled is (gaugeFigures_eq levelIs tempIs grossIs netIs)
  · exact loadGaugeEnded_armed active armed net
  · refine (loadGaugeEnded_settling active settling net).trans ((completeOrder_eq is net).trans ?_)
    rfl

end Sys2Proof.Machine
end

section
/-! PROOFS. What a successful authorisation writes (R77, R87 to R89): each hold by itself, then the session opened from
them. -/

namespace Sys2Proof.Machine

/-- The state with other machines and accounts. -/
def setRecords (machines : Table MachineRecord) (accounts : Table AccountRecord) (s : State) : State :=
  { s with machines := machines, accounts := accounts }

/-- R88: an amount is committed, with the restock comparison; the gauge aside. -/
def commit (c : CompId) (amount : Nat) (s : State) : State :=
  compareRestock c
    (setComp c { s.compartments.get c with committed := (s.compartments.get c).committed + amount } s)

theorem holdCompartment_eq (c : CompId) (hold : Nat) (s : State) :
    holdCompartment c hold s = abortHostGauge c (commit c (hold * 1000000) s) := rfl

/-! ### The compartment's hold (R77, R88) -/

section
variable {s : State}

/-- A gauge a host started is aborted with its DONE notice; any other goes on. -/
theorem abortHostGauge_host {c : CompId} {g : Gauge} (gauged : (s.compartments.get c).gauge = some g)
    (host : g.origin = .host) : abortHostGauge c s =
      setComp c { s.compartments.get c with gauge := none, outcome := .aborted } (raise (.doneComp c) s) := by
  simp only [abortHostGauge, abortGauge, gauged, host, if_true, raise_setComp]

theorem abortHostGauge_other {c : CompId} (other : ∀ g, (s.compartments.get c).gauge = some g → g.origin ≠ .host) :
    abortHostGauge c s = s := by
  cases gauged : (s.compartments.get c).gauge with
  | none => simp only [abortHostGauge, gauged]
  | some g => simp only [abortHostGauge, gauged, other g gauged, if_false]

end

section
variable (machines : Table MachineRecord) (accounts : Table AccountRecord) (s : State)

theorem raise_setRecords (n : Notice) :
    raise n (setRecords machines accounts s) = setRecords machines accounts (raise n s) := by
  unfold raise setRecords
  dsimp only
  split <;> rfl

theorem compareRestock_setRecords (c : CompId) :
    compareRestock c (setRecords machines accounts s) = setRecords machines accounts (compareRestock c s) := by
  have comps : (setRecords machines accounts s).compartments = s.compartments := rfl
  have put (k : Compartment) : setComp c k (setRecords machines accounts s) = setRecords machines accounts (setComp c k s) :=
    rfl
  simp only [compareRestock, comps, put, raise_setRecords, apply_ite (setRecords machines accounts)]

theorem abortHostGauge_setRecords (c : CompId) :
    abortHostGauge c (setRecords machines accounts s) = setRecords machines accounts (abortHostGauge c s) := by
  by_cases host : ∃ g, (s.compartments.get c).gauge = some g ∧ g.origin = .host
  · obtain ⟨g, gauged, host⟩ := host
    rw [abortHostGauge_host gauged host, abortHostGauge_host (s := setRecords machines accounts s) gauged host,
      raise_setRecords]
    rfl
  · have other : ∀ g, (s.compartments.get c).gauge = some g → g.origin ≠ .host :=
      fun g gauged is => host ⟨g, gauged, is⟩
    rw [abortHostGauge_other other, abortHostGauge_other (s := setRecords machines accounts s) other]

/-- The compartment's hold does not look at machines and accounts. -/
theorem holdCompartment_setRecords (c : CompId) (hold : Nat) :
    holdCompartment c hold (setRecords machines accounts s) = setRecords machines accounts (holdCompartment c hold s) :=
  (congrArg (abortHostGauge c) (compareRestock_setRecords machines accounts (setComp c _ s) c)).trans
    (abortHostGauge_setRecords ..)

end

/-- Nothing but compartments and notices differs. -/
def StockOnly (s t : State) : Prop := t = { s with compartments := t.compartments, notices := t.notices }

theorem StockOnly.trans {s t u : State} (first : StockOnly s t) (second : StockOnly t u) : StockOnly s u := by
  unfold StockOnly at first second ⊢
  rw [first] at second
  exact second

theorem stockOnly_raise (n : Notice) (s : State) : StockOnly s (raise n s) := by
  unfold raise
  split <;> rfl

theorem stockOnly_setComp (c : CompId) (k : Compartment) (s : State) : StockOnly s (setComp c k s) := rfl

section
variable (c : CompId) (hold : Nat) (s : State)

theorem stockOnly_compareRestock : StockOnly s (compareRestock c s) := by
  rcases compareRestock_eq c s with is | is <;> rw [is]
  · exact stockOnly_setComp ..
  · exact (stockOnly_setComp ..).trans (stockOnly_raise ..)

theorem stockOnly_abortHostGauge : StockOnly s (abortHostGauge c s) := by
  unfold abortHostGauge
  split
  · split
    · rw [abortGauge_eq]
      exact (stockOnly_setComp ..).trans (stockOnly_raise ..)
    · rfl
  · rfl

theorem stockOnly_holdCompartment : StockOnly s (holdCompartment c hold s) :=
  ((stockOnly_setComp ..).trans (stockOnly_compareRestock ..)).trans (stockOnly_abortHostGauge ..)

/-- The hold's record: committed rises, book and gauge stay. -/
theorem commit_compartments (amount : Nat) : ∃ k, (commit c amount s).compartments = s.compartments.set c k
    ∧ k.committed = (s.compartments.get c).committed + amount ∧ k.book = (s.compartments.get c).book
    ∧ k.gauge = (s.compartments.get c).gauge := by
  refine ⟨restocked { s.compartments.get c with committed := (s.compartments.get c).committed + amount },
    ?_, rfl, rfl, rfl⟩
  unfold commit
  rcases compareRestock_eq c (setComp c { s.compartments.get c with
    committed := (s.compartments.get c).committed + amount } s) with is | is <;> simp [is]

/-- The gauge the hold meets is the one in flight before it. -/
theorem commit_gauge (amount : Nat) :
    ((commit c amount s).compartments.get c).gauge = (s.compartments.get c).gauge := by
  obtain ⟨k, comps, -, -, gauge⟩ := commit_compartments c s amount
  rw [comps, ByFour_get_set, gauge]

theorem holdCompartment_compartments : ∃ k, (holdCompartment c hold s).compartments = s.compartments.set c k
    ∧ k.committed = (s.compartments.get c).committed + hold * 1000000 ∧ k.book = (s.compartments.get c).book := by
  rw [holdCompartment_eq]
  generalize hold * 1000000 = amount
  obtain ⟨k, comps, committed, book, -⟩ := commit_compartments c s amount
  by_cases host : ∃ g, ((commit c amount s).compartments.get c).gauge = some g ∧ g.origin = .host
  · obtain ⟨g, gauged, host⟩ := host
    refine ⟨{ k with gauge := none, outcome := .aborted }, ?_, committed, book⟩
    rw [abortHostGauge_host gauged host]
    simp [comps]
  · exact ⟨k, by rw [abortHostGauge_other fun g gauged is => host ⟨g, gauged, is⟩, comps], committed, book⟩

end

/-! ### The machine's link, the hose's channel and the session (R87 to R89) -/

section
variable {id : HoseId} {t : Terms} {s : State}

theorem holdMachine_none (none : t.machine = none) (hold : Nat) : holdMachine id t hold s = s := by
  simp only [holdMachine, none]

theorem holdMachine_some {slot : Nat} {tank : TankKind} {m : MachineRecord} (names : t.machine = some (slot, tank))
    (found : tableGet s.machines slot = some m) (hold : Nat) :
    holdMachine id t hold s = writeMachine slot (linkMachine id tank hold m) s := by
  simp only [holdMachine, names, machineAt, found]

theorem holdMachine_eq (id : HoseId) (t : Terms) (hold : Nat) (s : State) :
    holdMachine id t hold s = setRecords (holdMachine id t hold s).machines s.accounts s := by
  unfold holdMachine
  split
  · rfl
  · split <;> rfl

theorem flowSetPoint_eq (maxFlow : Nat) (ceiling : Option Nat) :
    flowSetPoint maxFlow ceiling = min maxFlow (ceiling.getD maxFlow) := by
  cases ceiling <;> simp [flowSetPoint, least]

theorem openHoseChannel_channels (m : MeterId) (s : State) : (openHoseChannel m s).channels =
    s.channels.set m
      { s.channels.get m with
        grossResidue := 0, netResidue := 0, debt := 0, reverseMark := false, illegal := 0, unattributed := 0 } := by
  simp [openHoseChannel, openChannel]

/-- The record of an account that an authorisation holds money of. -/
def heldAccount (hold price : Nat) (a : AccountRecord) : AccountRecord :=
  accountStamp { a with held := a.held + hold * price, openSessions := a.openSessions + 1 }

/-- The session opens on the holds, each taken of the state before. -/
theorem openSession_eq {a : AccountRecord} {price : Nat} {c : Choice} (found : tableGet s.accounts t.account = some a)
    (priceIs : price = (s.prices.get a.tier).get c.grade) :
    openSession id t c s = enterReady id (newSession id t c price s) (openHoseChannel id.meter
      (setRecords (holdMachine id t c.hold s).machines (tableSet s.accounts t.account (heldAccount c.hold price a))
        (holdCompartment c.comp c.hold s))) := by
  have snapshotIs : snapshot t c s = price := by simp only [snapshot, accountAt, found, priceIs, priceFor]
  have account : holdAccount t.account (c.hold * price) (holdMachine id t c.hold s)
      = setRecords (holdMachine id t c.hold s).machines
          (tableSet s.accounts t.account (heldAccount c.hold price a)) s := by
    rw [holdMachine_eq]
    exact changeAccount_some _ found
  unfold openSession
  rw [snapshotIs]
  dsimp only
  rw [← holdCompartment_setRecords, ← account]
  rfl

end

/-- Settles O23: the session opened on its holds, read field by field. -/
theorem authorisationTakesHoldsR88 : Obligations.AuthorisationTakesHoldsR88 := by
  rintro id t c a s u price h found priceIs rfl rfl
  rw [openSession_eq found priceIs]
  obtain ⟨k, comps, committed, book⟩ := holdCompartment_compartments c.comp c.hold s
  have frame := stockOnly_holdCompartment c.comp c.hold s
  have aborts := holdCompartment_eq c.comp c.hold s
  have opened := openHoseChannel_channels id.meter s
  generalize holdCompartment c.comp c.hold s = held at frame aborts comps
  generalize machinesIs : (holdMachine id t c.hold s).machines = machines
  refine ⟨fun none => ?_, fun slot tank m names listed => ?_, rfl, ?_, ?_, ?_, fun d other => ?_, ?_, ?_, ?_⟩
  · change machines = s.machines
    rw [← machinesIs, holdMachine_none none]
  · change machines = _
    rw [← machinesIs, holdMachine_some names listed]
    cases tank <;> rfl
  · rintro _ v rfl vIs
    obtain rfl : v = commit c.comp (c.hold * 1000000) s := vIs
    have gauges := commit_gauge c.comp s (c.hold * 1000000)
    generalize commit c.comp (c.hold * 1000000) s = v at aborts gauges
    refine ⟨fun g gauged host => ?_, fun other => ?_⟩
    · rw [abortHostGauge_host (gauges.trans gauged) host] at aborts
      subst aborts
      exact ⟨congrArg (ByFour.set · _ _) (raise_compartments ..), rfl⟩
    · rw [abortHostGauge_other (by rwa [gauges])] at aborts
      subst aborts
      exact ⟨rfl, rfl⟩
  · change (held.compartments.get c.comp).committed = _
    rw [comps, ByFour_get_set, committed]
  · change (held.compartments.get c.comp).book = _
    rw [comps, ByFour_get_set, book]
  · change held.compartments.get d = _
    rw [comps, ByFour_get_set_ne _ _ _ _ other]
  · rw [frame, ← flowSetPoint_eq]
    rfl
  · rw [frame]
    exact opened
  · rw [frame]
    rfl

end Sys2Proof.Machine
end
